-- ==== Sys2Proof/Word.lean ====
section
/-! DEFINITION. The unit of every memory of the engine (20_memory.md R40: byte accesses only). -/

namespace Sys2Proof

/-- A byte of a packet, a buffer or a table. -/
abbrev Byte := BitVec 8

end Sys2Proof
end

