-- ==== Sys2Proof/Syntax.lean ====
section
/-! DEFINITION. The names of the spec (banks, buffers, events, operations, outcomes, requests), the raw words of the five
formats of the opcode table, and the one type of instructions: a constructor per row of spec/opcode_table.json. -/

namespace Sys2Proof

/-- A transfer direction (30_encoding.md R57): OUT = 0, IN = 1. -/
inductive Dir where
  | out
  | inn
  deriving DecidableEq, Repr

/-- The transfer types a bank can have (10_state.md R29). -/
inductive EpType where
  | control
  | bulk
  deriving DecidableEq, Repr, Inhabited

/-- The four banks, BANK[0][OUT], BANK[0][IN], BANK[1][IN], BANK[2][OUT] (10_state.md R28). -/
inductive Bank where
  | ep0Out
  | ep0In
  | ep1In
  | ep2Out
  deriving DecidableEq, Repr

/-- The endpoints that have an IN bank (40_endpoint_bank.md R67). -/
inductive InEp where
  | ep0
  | ep1
  deriving DecidableEq, Repr

/-- The endpoints that have an OUT bank (40_endpoint_bank.md R68, R69). -/
inductive OutEp where
  | ep0
  | ep2
  deriving DecidableEq, Repr

/-- The four packet buffers, by name (20_memory.md R34). -/
inductive PacketBuf where
  | ep0OutBuf
  | ep0InBuf
  | ep1InBuf
  | ep2OutBuf
  deriving DecidableEq, Repr, Inhabited

/-- The ten events, one for each pending flag (10_state.md R31, 30_encoding.md R55). -/
inductive Event where
  | busReset
  | ep0TrcptIn
  | ep0TrcptOut
  | ep0Setup
  | ep0StallIn
  | ep0StallOut
  | ep1TrcptIn
  | ep1StallIn
  | ep2TrcptOut
  | ep2StallOut
  deriving DecidableEq, Repr

/-- The states of the control engine (10_state.md R19). -/
inductive Ep0State where
  | expectSetup
  | dataStageIn
  | dataStageOut
  | noDataStatus
  deriving DecidableEq, Repr

/-- What the 3-bit BOT state register can hold (10_state.md R23): the six named states and the two reserved encodings,
which no rule writes and on which a model faults (log 18). -/
inductive BotState where
  | expectingCbw
  | dataInPending
  | expectingDataOut
  | cswPending
  | stallPending
  | error
  | reserved6
  | reserved7
  deriving DecidableEq, Repr

/-- The event kinds of the BOT transition function (30_encoding.md R56). -/
inductive BotEvent where
  | bulkOut
  | bulkInComplete
  | stallCleared
  deriving DecidableEq, Repr

/-- What the BOT transition function answers (30_encoding.md R58). `send 0` and `noData` differ. -/
inductive BotOutcome where
  | send (n : Nat)
  | noData
  | requestStall
  deriving DecidableEq, Repr

/-- Whether a received CBW is validated (00_scope.md R10). `off` is the spec's value `None`. -/
inductive CbwCheck where
  | strict
  | off
  deriving DecidableEq, Repr

/-- The bank operations the engine appends to its output list (30_encoding.md R57). BytesReceived is a read and is never
in the list. -/
inductive BankOp where
  | configure (b : Bank) (ty : EpType) (buf : PacketBuf) (mps : Nat)
  | armSend (ep : InEp) (n : Nat)
  | release (ep : OutEp)
  | stall (b : Bank)
  | clearStall (b : Bank)
  | writeAddress (v : Byte)
  deriving DecidableEq, Repr

/-- The five fields of a SETUP packet (10_state.md R20, 30_encoding.md R51). -/
structure SetupRequest where
  requestType : BitVec 8
  request : BitVec 8
  value : BitVec 16
  index : BitVec 16
  length : BitVec 16
  deriving DecidableEq, Repr

/-- The result of a host step that the host sees (40_endpoint_bank.md section 2). `noHandshake` is the spec's NONE. -/
inductive HostResult where
  | ack
  | nak
  | stall
  | noHandshake
  | data (d : List Byte)
  deriving DecidableEq, Repr

/-- A host step as a host may ask for it (40_endpoint_bank.md R73 to R76). Lengths and endpoints are unchecked here: the
moves R77 gives the host no right to are refused when they run. -/
inductive HostMove where
  | setup (p : List Byte)
  | out (ep : Nat) (d : List Byte)
  | inn (ep : Nat)
  | reset
  deriving DecidableEq, Repr

/-- A line of an event script (30_encoding.md R65). `engineStar` is the line `engine*`. -/
inductive ScriptLine where
  | host (m : HostMove)
  | engine
  | engineStar
  deriving DecidableEq, Repr

/-- The five formats of the opcode table. -/
inductive Format where
  | setup
  | cbwOp
  | event
  | botCell
  | op
  deriving DecidableEq, Repr

/-- The raw word of each format, as the decoder receives it. A CBW_OP word is the three values R61 decodes (log 8). An OP
word holds the code and every argument field of R57, the fields an operation does not have being ignored (log 7). -/
inductive Raw where
  | setup (w : BitVec 64)
  | cbwOp (outLen signature : BitVec 32) (opcode : BitVec 8)
  | event (code : BitVec 4)
  | botCell (v : BitVec 5)
  | op (code : BitVec 3) (ep : BitVec 2) (dir : BitVec 1) (ty buf : BitVec 2) (count : BitVec 32) (value : BitVec 8)
  deriving DecidableEq, Repr

/-- An instruction: a row of spec/opcode_table.json with the operands its encoding leaves free. `rt` is bmRequestType bits
6:0, its bit 7 being fixed by the row. -/
inductive Instr where
  -- SETUP rows, in decode order (30_encoding.md R60)
  | classGetMaxLun (value length : BitVec 16)
  | classInUnsupported (request : BitVec 8) (value length : BitVec 16)
  | getDescriptorDevice (rt : BitVec 7) (descIndex : BitVec 8) (index length : BitVec 16)
  | getDescriptorConfiguration (rt : BitVec 7) (descIndex : BitVec 8) (index length : BitVec 16)
  | getDescriptorUnsupported (rt : BitVec 7) (descType descIndex : BitVec 8) (index length : BitVec 16)
  | inUnsupported (rt : BitVec 7) (request : BitVec 8) (value index length : BitVec 16)
  | setAddress (rt : BitVec 7) (value index : BitVec 16)
  | setConfiguration (rt : BitVec 7) (value index : BitVec 16)
  | clearFeatureEp81 (rt : BitVec 7) (value : BitVec 16)
  | outDefaultAck (rt : BitVec 7) (request : BitVec 8) (value index : BitVec 16)
  | outWithData (rt : BitVec 7) (request : BitVec 8) (value index length : BitVec 16)
  -- CBW_OP rows (30_encoding.md R61)
  | scsiInvalidCbw (outLen signature : BitVec 32) (opcode : BitVec 8)
  | scsiTestUnitReady
  | scsiInquiry
  | scsiReadCapacity10
  | scsiUnsupported (opcode : BitVec 8)
  -- EVENT rows (30_encoding.md R55)
  | busReset
  | ep0TrcptIn
  | ep0TrcptOut
  | ep0Setup
  | ep0StallIn
  | ep0StallOut
  | ep1TrcptIn
  | ep1StallIn
  | ep2TrcptOut
  | ep2StallOut
  -- BOT_CELL rows (43_bot_engine.md R105)
  | botExpectingCbwBulkOut
  | botExpectingCbwBulkInComplete
  | botExpectingCbwStallCleared
  | botDataInPendingBulkOut
  | botDataInPendingBulkInComplete
  | botDataInPendingStallCleared
  | botExpectingDataOutBulkOut
  | botExpectingDataOutBulkInComplete
  | botExpectingDataOutStallCleared
  | botCswPendingBulkOut
  | botCswPendingBulkInComplete
  | botCswPendingStallCleared
  | botStallPendingBulkOut
  | botStallPendingBulkInComplete
  | botStallPendingStallCleared
  | botErrorBulkOut
  | botErrorBulkInComplete
  | botErrorStallCleared
  -- OP rows (30_encoding.md R57)
  | configure (ep : BitVec 2) (dir : Dir) (ty : EpType) (buf : PacketBuf) (mps : Nat)
  | armSend (ep : BitVec 2) (n : Nat)
  | bytesReceived (ep : BitVec 2)
  | release (ep : BitVec 2)
  | stall (ep : BitVec 2) (dir : Dir)
  | clearStall (ep : BitVec 2) (dir : Dir)
  | writeAddress (v : BitVec 8)
  deriving DecidableEq, Repr

end Sys2Proof
end

