-- ==== Sys2Proof/Config.lean ====
section
/-! DEFINITION. The engine's parameters (00_scope.md section 2, 10_state.md R32) and the free values of the power-on state
(10_state.md R33). An opaque constant here has no body: nothing can be proved of its value. -/

namespace Sys2Proof

/-- CBW_CHECK: this hardware takes Strict (00_scope.md R10, log 17). -/
def Config.cbwCheck : CbwCheck := .strict

/-- The parameter bytes of DEVICE_DESCRIPTOR by offset; only offsets 2..6 and 8..16 are used (41_descriptor_table.md R78, R79;
log 15). -/
opaque Config.deviceByte : Nat → Byte

/-- The parameter bytes of CONFIG_DESCRIPTOR by offset; only offsets 5..8, 17, 24 and 31 are used (41_descriptor_table.md R80, R81;
log 15). -/
opaque Config.configByte : Nat → Byte

/-- The 36 bytes of INQUIRY_DATA by offset (00_scope.md R13; log 15). -/
opaque Config.inquiryByte : Nat → Byte

/-- MPS_CODE, the platform's encoding of a max packet size (00_scope.md R15; log 16). -/
opaque Config.mpsCode : Nat → Nat

/-- Where the platform places the four packet buffers: each address is the start of a 64-byte region, and no two regions overlap
(00_scope.md R16). The fields' defaults only show that a layout exists; the machine's own layout is the free `Config.bufLayout`. -/
structure BufLayout where
  /-- The address of a buffer. -/
  addr : PacketBuf → Nat := fun p => match p with
    | .ep0OutBuf => 0
    | .ep0InBuf => 64
    | .ep1InBuf => 128
    | .ep2OutBuf => 192
  /-- Two buffers' regions lie apart. -/
  apart : ∀ p q, p ≠ q → addr p + 64 ≤ addr q ∨ addr q + 64 ≤ addr p := by
    intro p q h; cases p <;> cases q <;> first | exact absurd rfl h | decide
  deriving Inhabited

/-- The platform's layout: some layout, and nothing more is known of it (00_scope.md R16; log 16). -/
opaque Config.bufLayout : BufLayout

/-- The platform address of each packet buffer, BUF_ADDR_* (00_scope.md R16; log 16). -/
def Config.bufAddr (p : PacketBuf) : Nat := Config.bufLayout.addr p

/-- What a byte of a packet buffer holds at power-on: a draw (10_state.md R33, 92_eei_decisions.md D7; log 13). -/
opaque Config.powerOnByte : PacketBuf → Nat → Byte

/-- The buffer whose address an unconfigured bank's `buffer_address` holds at power-on: unspecified (10_state.md R33; log 14). -/
opaque Config.resetBuffer : Bank → PacketBuf

/-- An unconfigured bank's `max_packet_code` at power-on: unspecified (10_state.md R33; log 14). -/
opaque Config.resetPacketCode : Bank → Nat

/-- An unconfigured bank's `ep_type` at power-on: unspecified (10_state.md R33; log 14). -/
opaque Config.resetEpType : Bank → EpType

/-- An unconfigured bank's `max_packet_size` at power-on: unspecified within 0..64 (10_state.md R29, R33; log 14). -/
opaque Config.resetPacketSize : Bank → Fin 65

/-- PKT_BUF_SIZE (00_scope.md R6). -/
def Config.pktBufSize : Nat := 64

/-- EP0_MPS (00_scope.md R7). -/
def Config.ep0Mps : Nat := 64

/-- BULK_MPS (00_scope.md R8). -/
def Config.bulkMps : Nat := 64

/-- LAST_LBA (00_scope.md R14). -/
def Config.lastLba : BitVec 32 := 2047

/-- BLOCK_SIZE (00_scope.md R14). -/
def Config.blockSize : BitVec 32 := 512

end Sys2Proof
end

