-- ==== Sys2Proof/Machine/State.lean ====
section
/-! DEFINITION. The machine's state as plain data (10_state.md), its two ways to stop, and the state after power-on reset
(10_state.md R33). -/

namespace Sys2Proof.Machine

/-- The last accepted Command Block Wrapper (10_state.md R24). -/
structure Cbw where
  signature : BitVec 32
  tag : BitVec 32
  dataTransferLength : BitVec 32
  flags : BitVec 8
  lun : BitVec 8
  cbwcbLength : BitVec 8
  cbwcb : Vector Byte 16
  deriving DecidableEq, Repr

/-- 31 zero bytes (10_state.md R33). -/
def Cbw.zero : Cbw := ⟨0, 0, 0, 0, 0, 0, Vector.replicate 16 0⟩

/-- The Command Status Wrapper being built; its signature is a constant and is not stored (10_state.md R25). -/
structure Csw where
  tag : BitVec 32
  dataResidue : BitVec 32
  status : BitVec 8
  deriving DecidableEq, Repr

/-- One endpoint bank (10_state.md R29). -/
structure BankDesc where
  bufferAddress : Nat
  maxPacketCode : Nat
  byteCount : BitVec 32
  ready : Bool
  configured : Bool
  epType : EpType
  maxPacketSize : Nat
  stall : Bool
  deriving DecidableEq, Repr

/-- The endpoint bank table (10_state.md R28). -/
structure Banks where
  ep0Out : BankDesc
  ep0In : BankDesc
  ep1In : BankDesc
  ep2Out : BankDesc
  deriving DecidableEq, Repr

/-- The ten pending event flags (10_state.md R31). -/
structure Flags where
  busReset : Bool
  ep0TrcptIn : Bool
  ep0TrcptOut : Bool
  ep0Setup : Bool
  ep0StallIn : Bool
  ep0StallOut : Bool
  ep1TrcptIn : Bool
  ep1StallIn : Bool
  ep2TrcptOut : Bool
  ep2StallOut : Bool
  deriving DecidableEq, Repr

/-- No flag pending. -/
def Flags.none : Flags :=
  ⟨false, false, false, false, false, false, false, false, false, false⟩

/-- The bytes of one packet buffer written since power-on, by offset. An unlisted offset has not been written; it reads as its
power-on draw (log 13). -/
abbrev Memory := List Host.Cell

/-- The canonical form of a packet buffer: offsets strictly rising and below the buffer's 64 bytes. -/
abbrev Memory.wf (m : Memory) : Prop :=
  m.Pairwise (fun a b => a.1 < b.1) ∧ ∀ c ∈ m, c.1 < 64

/-- The four packet buffers (20_memory.md R34). -/
structure Buffers where
  ep0Out : Memory
  ep0In : Memory
  ep1In : Memory
  ep2Out : Memory
  deriving DecidableEq, Repr

/-- What the last step showed the outside: the model's own record, read by no rule of the engine (log 1). -/
structure Output where
  /-- The event's ordered list of bank operations (00_scope.md R5). -/
  ops : List BankOp
  /-- What a BOT cell or SCSI row run on its own returned. -/
  outcome : Option BotOutcome
  /-- What a BytesReceived run on its own returned. -/
  received : Option (BitVec 32)
  /-- The host step's result. -/
  result : Option HostResult
  deriving DecidableEq, Repr

/-- Nothing shown. -/
def Output.empty : Output := ⟨[], .none, .none, .none⟩

/-- The whole machine. -/
structure State where
  ep0State : Ep0State
  setup : SetupRequest
  addrPendingValid : Bool
  addrPending : BitVec 7
  devAddr : BitVec 8
  botState : BotState
  cbw : Cbw
  csw : Csw
  remaining : BitVec 32
  banks : Banks
  flags : Flags
  bufs : Buffers
  out : Output
  script : List ScriptLine
  deriving DecidableEq, Repr

/-- The faults of the model (60_exceptions.md R139). All are safe: the machine stops where the source gives no meaning. -/
inductive Fault where
  /-- ArmSend of more than 64 bytes (40_endpoint_bank.md R67); raised by the operation. Safe. -/
  | armOverflow
  /-- Configure with a foreign buffer or a size above 64 (40_endpoint_bank.md R66); raised by the operation. Safe. -/
  | badConfigure
  /-- A memory access beyond its buffer or table (20_memory.md R42); raised by every read and write. Safe. -/
  | memBounds
  /-- `handle` called with bot_state 6 or 7 (10_state.md R23). Safe. -/
  | badBotState
  deriving DecidableEq, Repr

/-- Why a step has no meaning in the model. -/
inductive Refusal where
  /-- An instruction that has no meaning yet; raised by exec's arms only. Safe. -/
  | notModelled (mnemonic : String)
  /-- An operation whose (ep, dir) names no bank (30_encoding.md R57, 10_state.md R28; log 12); raised by the OP meanings on
  ill-formed operands. Safe. -/
  | noSuchBank
  /-- A host step that the host is assumed never to take (40_endpoint_bank.md R77; log 5); raised by the host steps. Safe. -/
  | noHostMove
  deriving DecidableEq, Repr

/-- An EP0 bank after reset: configured as Control, 64 bytes, nothing staged (10_state.md R33). -/
def BankDesc.resetEp0 (buf : PacketBuf) (ready : Bool) : BankDesc :=
  { bufferAddress := Config.bufAddr buf
    maxPacketCode := Config.mpsCode Config.ep0Mps
    byteCount := 0
    ready := ready
    configured := true
    epType := .control
    maxPacketSize := Config.ep0Mps
    stall := false }

/-- A bulk bank after power-on: unconfigured, its other fields unspecified (10_state.md R33; log 14). -/
def BankDesc.resetBulk (b : Bank) : BankDesc :=
  { bufferAddress := Config.bufAddr (Config.resetBuffer b)
    maxPacketCode := Config.resetPacketCode b
    byteCount := 0
    ready := false
    configured := false
    epType := Config.resetEpType b
    maxPacketSize := (Config.resetPacketSize b).val
    stall := false }

/-- The state after power-on reset (70_reset_and_hazards.md R147, 10_state.md R33). -/
def State.reset : State :=
  { ep0State := .expectSetup
    setup := ⟨0, 0, 0, 0, 0⟩
    addrPendingValid := false
    addrPending := 0
    devAddr := 0x00
    botState := .expectingCbw
    cbw := Cbw.zero
    csw := ⟨0, 0, 0⟩
    remaining := 0
    banks := ⟨.resetEp0 .ep0OutBuf true, .resetEp0 .ep0InBuf false, .resetBulk .ep1In, .resetBulk .ep2Out⟩
    flags := Flags.none
    bufs := ⟨[], [], [], []⟩
    out := Output.empty
    script := [] }

end Sys2Proof.Machine
end

