-- ==== Sys2Proof/Machine/Flags.lean ====
section
/-! DEFINITION. The pending event flags: reading, writing, and the priority in which they are taken (60_exceptions.md R128, R129). -/

namespace Sys2Proof.Machine

/-- Whether an event's flag is 1. -/
def Flags.get (f : Flags) : Event → Bool
  | .busReset => f.busReset
  | .ep0TrcptIn => f.ep0TrcptIn
  | .ep0TrcptOut => f.ep0TrcptOut
  | .ep0Setup => f.ep0Setup
  | .ep0StallIn => f.ep0StallIn
  | .ep0StallOut => f.ep0StallOut
  | .ep1TrcptIn => f.ep1TrcptIn
  | .ep1StallIn => f.ep1StallIn
  | .ep2TrcptOut => f.ep2TrcptOut
  | .ep2StallOut => f.ep2StallOut

/-- The flags with one of them written. -/
def Flags.set (f : Flags) (e : Event) (v : Bool) : Flags :=
  match e with
  | .busReset => { f with busReset := v }
  | .ep0TrcptIn => { f with ep0TrcptIn := v }
  | .ep0TrcptOut => { f with ep0TrcptOut := v }
  | .ep0Setup => { f with ep0Setup := v }
  | .ep0StallIn => { f with ep0StallIn := v }
  | .ep0StallOut => { f with ep0StallOut := v }
  | .ep1TrcptIn => { f with ep1TrcptIn := v }
  | .ep1StallIn => { f with ep1StallIn := v }
  | .ep2TrcptOut => { f with ep2TrcptOut := v }
  | .ep2StallOut => { f with ep2StallOut := v }

/-- The event the engine takes next: the pending flag with the lowest code (60_exceptions.md R129). -/
def Flags.next (f : Flags) : Option Event :=
  if f.busReset then some .busReset
  else if f.ep0TrcptIn then some .ep0TrcptIn
  else if f.ep0TrcptOut then some .ep0TrcptOut
  else if f.ep0Setup then some .ep0Setup
  else if f.ep0StallIn then some .ep0StallIn
  else if f.ep0StallOut then some .ep0StallOut
  else if f.ep1TrcptIn then some .ep1TrcptIn
  else if f.ep1StallIn then some .ep1StallIn
  else if f.ep2TrcptOut then some .ep2TrcptOut
  else if f.ep2StallOut then some .ep2StallOut
  else Option.none

/-- The state with one pending flag written. -/
def State.setFlag (s : State) (e : Event) (v : Bool) : State :=
  { s with flags := s.flags.set e v }

end Sys2Proof.Machine
end

