-- ==== Sys2Proof/Machine/Memory.lean ====
section
/-! DEFINITION. The packet buffers as canonical lists of written bytes, and the read-only tables (20_memory.md R34, R36, R42, R44). -/

namespace Sys2Proof.Machine

/-- The byte written at an offset, if one was. -/
def Memory.lookup : Memory → Nat → Option Byte
  | [], _ => none
  | c :: m, a => if c.1 = a then some c.2 else Memory.lookup m a

/-- The memory with one byte written, in canonical form. -/
def Memory.insert : Memory → Nat → Byte → Memory
  | [], a, v => [(a, v)]
  | c :: m, a, v =>
    if a < c.1 then (a, v) :: c :: m
    else if a = c.1 then (a, v) :: m
    else c :: Memory.insert m a v

/-- The memory with a run of bytes written from an offset up. -/
def Memory.write : Memory → Nat → List Byte → Memory
  | m, _, [] => m
  | m, a, v :: vs => Memory.write (Memory.insert m a v) (a + 1) vs

/-- The named packet buffer. -/
def Buffers.get (b : Buffers) : PacketBuf → Memory
  | .ep0OutBuf => b.ep0Out
  | .ep0InBuf => b.ep0In
  | .ep1InBuf => b.ep1In
  | .ep2OutBuf => b.ep2Out

/-- The buffers with one of them replaced. -/
def Buffers.set (b : Buffers) (p : PacketBuf) (m : Memory) : Buffers :=
  match p with
  | .ep0OutBuf => { b with ep0Out := m }
  | .ep0InBuf => { b with ep0In := m }
  | .ep1InBuf => { b with ep1In := m }
  | .ep2OutBuf => { b with ep2Out := m }

/-- B[i]: the byte of a packet buffer; one never written reads as its power-on draw (10_state.md R33; log 13). -/
def State.byteAt (s : State) (b : PacketBuf) (i : Nat) : Byte :=
  match Memory.lookup (s.bufs.get b) i with
  | some v => v
  | none => Config.powerOnByte b i

/-- The `n` bytes of a buffer from an offset up, with no bound checked. -/
def State.bytesFrom (s : State) (b : PacketBuf) (off : Nat) : Nat → List Byte
  | 0 => []
  | n + 1 => s.byteAt b off :: s.bytesFrom b (off + 1) n

/-- The state with a run of bytes written into a buffer, with no bound checked. -/
def State.writeBytes (s : State) (b : PacketBuf) (off : Nat) (v : List Byte) : State :=
  { s with bufs := s.bufs.set b (Memory.write (s.bufs.get b) off v) }

/-- `MemRead` of a packet buffer: MemBounds beyond its 64 bytes (20_memory.md R42). -/
def memRead (s : State) (b : PacketBuf) (off n : Nat) : Host.Outcome (List Byte) Fault Refusal :=
  if off + n ≤ Config.pktBufSize then .next (s.bytesFrom b off n) else .fault .memBounds

/-- `MemWrite` of a packet buffer: MemBounds beyond its 64 bytes (20_memory.md R42). -/
def memWrite (s : State) (b : PacketBuf) (off : Nat) (v : List Byte) : Host.Outcome State Fault Refusal :=
  if off + v.length ≤ Config.pktBufSize then .next (s.writeBytes b off v) else .fault .memBounds

/-- `MemRead` of a read-only table: MemBounds beyond its length (20_memory.md R42). -/
def tableRead (t : List Byte) (off n : Nat) : Host.Outcome (List Byte) Fault Refusal :=
  if off + n ≤ t.length then .next ((t.drop off).take n) else .fault .memBounds

end Sys2Proof.Machine
end

