-- ==== Sys2Proof/WellFormed.lean ====
section
/-! DEFINITION. Which instruction terms stand for an encoding: the operands a row of the opcode table leaves to the rows
tried before it are excluded (30_encoding.md R60, R61), and an operation's (ep, dir) names a bank (R57). -/

namespace Sys2Proof

/-- The bank an (ep, dir) pair names, if it names one (10_state.md R28). -/
def bankOf : BitVec 2 → Dir → Option Bank
  | 0, .out => some .ep0Out
  | 0, .inn => some .ep0In
  | 1, .inn => some .ep1In
  | 2, .out => some .ep2Out
  | _, _ => none

/-- The IN endpoint a number names (40_endpoint_bank.md R67). -/
def inEpOf : BitVec 2 → Option InEp
  | 0 => some .ep0
  | 1 => some .ep1
  | _ => none

/-- The OUT endpoint a number names (40_endpoint_bank.md R68, R69). -/
def outEpOf : BitVec 2 → Option OutEp
  | 0 => some .ep0
  | 2 => some .ep2
  | _ => none

/-- The class-interface test of rows 1 and 2, on bmRequestType bits 6:0 of a device-to-host request (30_encoding.md R60). -/
def isClassInterface0 (rt : BitVec 7) (index : BitVec 16) : Bool :=
  rt == 0x21 && index == 0

/-- The well-formed instructions: those some raw word decodes to. The count arguments are 32-bit; `n ≤ 64` and `mps ≤ 64` are
preconditions of R67 and R66, on which the meanings fault, and no part of this. -/
def Instr.wf : Instr → Bool
  | .classGetMaxLun _ _ => true
  | .classInUnsupported request _ _ => request != 0xFE
  | .getDescriptorDevice rt _ index _ => !isClassInterface0 rt index
  | .getDescriptorConfiguration rt _ index _ => !isClassInterface0 rt index
  | .getDescriptorUnsupported rt descType _ index _ =>
      !isClassInterface0 rt index && descType != 1 && descType != 2
  | .inUnsupported rt request _ index _ => !isClassInterface0 rt index && request != 6
  | .setAddress _ _ _ => true
  | .setConfiguration _ _ _ => true
  | .clearFeatureEp81 _ _ => true
  | .outDefaultAck _ request _ index =>
      request != 5 && request != 9 && !(request == 1 && index == 0x0081)
  | .outWithData _ _ _ _ length => length != 0
  | .scsiInvalidCbw outLen signature _ => outLen != 31 || signature != 0x43425355
  | .scsiTestUnitReady => true
  | .scsiInquiry => true
  | .scsiReadCapacity10 => true
  | .scsiUnsupported opcode => opcode != 0x00 && opcode != 0x12 && opcode != 0x25
  | .busReset => true
  | .ep0TrcptIn => true
  | .ep0TrcptOut => true
  | .ep0Setup => true
  | .ep0StallIn => true
  | .ep0StallOut => true
  | .ep1TrcptIn => true
  | .ep1StallIn => true
  | .ep2TrcptOut => true
  | .ep2StallOut => true
  | .botExpectingCbwBulkOut => true
  | .botExpectingCbwBulkInComplete => true
  | .botExpectingCbwStallCleared => true
  | .botDataInPendingBulkOut => true
  | .botDataInPendingBulkInComplete => true
  | .botDataInPendingStallCleared => true
  | .botExpectingDataOutBulkOut => true
  | .botExpectingDataOutBulkInComplete => true
  | .botExpectingDataOutStallCleared => true
  | .botCswPendingBulkOut => true
  | .botCswPendingBulkInComplete => true
  | .botCswPendingStallCleared => true
  | .botStallPendingBulkOut => true
  | .botStallPendingBulkInComplete => true
  | .botStallPendingStallCleared => true
  | .botErrorBulkOut => true
  | .botErrorBulkInComplete => true
  | .botErrorStallCleared => true
  | .configure ep dir _ _ mps => (bankOf ep dir).isSome && decide (mps < 2 ^ 32)
  | .armSend ep n => (inEpOf ep).isSome && decide (n < 2 ^ 32)
  | .bytesReceived ep => (outEpOf ep).isSome
  | .release ep => (outEpOf ep).isSome
  | .stall ep dir => (bankOf ep dir).isSome
  | .clearStall ep dir => (bankOf ep dir).isSome
  | .writeAddress _ => true

end Sys2Proof
end

