-- ==== Sys2Proof/Decode.lean ====
section
/-! DEFINITION. Byte orders (00_scope.md section 3), the numeric codes of the spec's names, the decode of the five formats of
the opcode table (30_encoding.md R55 to R61), the encoder written from the same tables, and the host's reading of a table
word. -/

namespace Sys2Proof

-- ## Byte orders

/-- LE16(b0, b1). -/
def le16 (b0 b1 : Byte) : BitVec 16 := b1 ++ b0

/-- LE32(b0, b1, b2, b3). -/
def le32 (b0 b1 b2 b3 : Byte) : BitVec 32 := b3 ++ b2 ++ b1 ++ b0

/-- The LE16 inverse. -/
def le16bytes (v : BitVec 16) : List Byte := [v.extractLsb' 0 8, v.extractLsb' 8 8]

/-- le32bytes(v). -/
def le32bytes (v : BitVec 32) : List Byte :=
  [v.extractLsb' 0 8, v.extractLsb' 8 8, v.extractLsb' 16 8, v.extractLsb' 24 8]

/-- be32bytes(v). -/
def be32bytes (v : BitVec 32) : List Byte :=
  [v.extractLsb' 24 8, v.extractLsb' 16 8, v.extractLsb' 8 8, v.extractLsb' 0 8]

-- ## Codes of the spec's names

/-- The numeric encoding of `ep0_state` (10_state.md R19). -/
def Ep0State.code : Ep0State → BitVec 2
  | .expectSetup => 0
  | .dataStageIn => 1
  | .dataStageOut => 2
  | .noDataStatus => 3

/-- The numeric encoding of `bot_state` (10_state.md R23). -/
def BotState.code : BotState → BitVec 3
  | .expectingCbw => 0
  | .dataInPending => 1
  | .expectingDataOut => 2
  | .cswPending => 3
  | .stallPending => 4
  | .error => 5
  | .reserved6 => 6
  | .reserved7 => 7

/-- The numeric encoding of a BOT event kind (30_encoding.md R56). -/
def BotEvent.code : BotEvent → BitVec 2
  | .bulkOut => 0
  | .bulkInComplete => 1
  | .stallCleared => 2

/-- The event codes, which are also the priority order (30_encoding.md R55, 60_exceptions.md R129). -/
def Event.code : Event → BitVec 4
  | .busReset => 0x0
  | .ep0TrcptIn => 0x1
  | .ep0TrcptOut => 0x2
  | .ep0Setup => 0x3
  | .ep0StallIn => 0x4
  | .ep0StallOut => 0x5
  | .ep1TrcptIn => 0x6
  | .ep1StallIn => 0x7
  | .ep2TrcptOut => 0x8
  | .ep2StallOut => 0x9

/-- Direction codes (30_encoding.md R57). -/
def Dir.code : Dir → BitVec 1
  | .out => 0
  | .inn => 1

/-- Transfer-type codes (30_encoding.md R57). -/
def EpType.code : EpType → BitVec 2
  | .control => 0
  | .bulk => 2

/-- Buffer codes of an operation's raw word: the order of 20_memory.md R34 (log 7). -/
def PacketBuf.code : PacketBuf → BitVec 2
  | .ep0OutBuf => 0
  | .ep0InBuf => 1
  | .ep1InBuf => 2
  | .ep2OutBuf => 3

-- ## SETUP

/-- The five fields of the 64-bit SETUP word (30_encoding.md R51). -/
def SetupRequest.ofWord (w : BitVec 64) : SetupRequest :=
  { requestType := w.extractLsb' 0 8
    request := w.extractLsb' 8 8
    value := w.extractLsb' 16 16
    index := w.extractLsb' 32 16
    length := w.extractLsb' 48 16 }

/-- The 64-bit SETUP word of five fields (30_encoding.md R51). -/
def SetupRequest.word (r : SetupRequest) : BitVec 64 :=
  r.length ++ r.index ++ r.value ++ r.request ++ r.requestType

/-- The SETUP fields latched from the packet's bytes p[0..7] (42_control_engine.md R84). -/
def SetupRequest.ofBytes (p : List Byte) : SetupRequest :=
  { requestType := p.getD 0 0
    request := p.getD 1 0
    value := le16 (p.getD 2 0) (p.getD 3 0)
    index := le16 (p.getD 4 0) (p.getD 5 0)
    length := le16 (p.getD 6 0) (p.getD 7 0) }

/-- The eight bytes of a SETUP packet (30_encoding.md R51). -/
def SetupRequest.bytes (r : SetupRequest) : List Byte :=
  [r.requestType, r.request] ++ le16bytes r.value ++ le16bytes r.index ++ le16bytes r.length

/-- Bit 7 of bmRequestType: device-to-host (30_encoding.md R52). -/
def SetupRequest.isIn (r : SetupRequest) : Bool := r.requestType.getLsbD 7

/-- bmRequestType bits 6:0 (30_encoding.md R52). -/
def SetupRequest.typeBits (r : SetupRequest) : BitVec 7 := r.requestType.extractLsb' 0 7

/-- desc_type = wValue[15:8] (30_encoding.md R53). -/
def descTypeOf (value : BitVec 16) : BitVec 8 := value.extractLsb' 8 8

/-- desc_index = wValue[7:0] (30_encoding.md R53). -/
def descIndexOf (value : BitVec 16) : BitVec 8 := value.extractLsb' 0 8

/-- new_addr = wValue[6:0] (30_encoding.md R53). -/
def newAddrOf (value : BitVec 16) : BitVec 7 := value.extractLsb' 0 7

/-- The eleven SETUP rows. -/
inductive SetupRow where
  | classGetMaxLun
  | classInUnsupported
  | getDescriptorDevice
  | getDescriptorConfiguration
  | getDescriptorUnsupported
  | inUnsupported
  | setAddress
  | setConfiguration
  | clearFeatureEp81
  | outDefaultAck
  | outWithData
  deriving DecidableEq, Repr

/-- The SETUP row a request takes: the conditions of 30_encoding.md R60, tried in its order, the first that holds winning. -/
def setupRow (r : SetupRequest) : SetupRow :=
  if r.requestType == 0xA1 && r.request == 0xFE && r.index == 0 then .classGetMaxLun
  else if r.requestType == 0xA1 && r.index == 0 then .classInUnsupported
  else if r.isIn && r.request == 6 && descTypeOf r.value == 1 then .getDescriptorDevice
  else if r.isIn && r.request == 6 && descTypeOf r.value == 2 then .getDescriptorConfiguration
  else if r.isIn && r.request == 6 then .getDescriptorUnsupported
  else if r.isIn then .inUnsupported
  else if r.request == 5 && r.length == 0 then .setAddress
  else if r.request == 9 && r.length == 0 then .setConfiguration
  else if r.request == 1 && r.index == 0x0081 && r.length == 0 then .clearFeatureEp81
  else if r.length == 0 then .outDefaultAck
  else .outWithData

/-- The instruction a SETUP request is (30_encoding.md R60). -/
def decodeSetup (r : SetupRequest) : Instr :=
  match setupRow r with
  | .classGetMaxLun => .classGetMaxLun r.value r.length
  | .classInUnsupported => .classInUnsupported r.request r.value r.length
  | .getDescriptorDevice => .getDescriptorDevice r.typeBits (descIndexOf r.value) r.index r.length
  | .getDescriptorConfiguration => .getDescriptorConfiguration r.typeBits (descIndexOf r.value) r.index r.length
  | .getDescriptorUnsupported =>
      .getDescriptorUnsupported r.typeBits (descTypeOf r.value) (descIndexOf r.value) r.index r.length
  | .inUnsupported => .inUnsupported r.typeBits r.request r.value r.index r.length
  | .setAddress => .setAddress r.typeBits r.value r.index
  | .setConfiguration => .setConfiguration r.typeBits r.value r.index
  | .clearFeatureEp81 => .clearFeatureEp81 r.typeBits r.value
  | .outDefaultAck => .outDefaultAck r.typeBits r.request r.value r.index
  | .outWithData => .outWithData r.typeBits r.request r.value r.index r.length

-- ## CBW_OP

/-- 'USBC' as LE32 (30_encoding.md R54). -/
def usbcSignature : BitVec 32 := 0x43425355

/-- The two tests of CBW_CHECK = Strict; under None every packet passes (44_scsi_commands.md R119). -/
def cbwAccepted (check : CbwCheck) (outLen signature : BitVec 32) : Bool :=
  match check with
  | .off => true
  | .strict => outLen == 31 && signature == usbcSignature

/-- The four SCSI rows of an accepted CBW. -/
inductive ScsiRow where
  | testUnitReady
  | inquiry
  | readCapacity10
  | unsupported
  deriving DecidableEq, Repr

/-- The SCSI row of an operation code (30_encoding.md R61). -/
def scsiRow (opcode : BitVec 8) : ScsiRow :=
  if opcode == 0x00 then .testUnitReady
  else if opcode == 0x12 then .inquiry
  else if opcode == 0x25 then .readCapacity10
  else .unsupported

/-- The instruction a received CBW is (30_encoding.md R61): row 0 when the validity check fails, else the row of cbwcb[0]. -/
def decodeCbw (check : CbwCheck) (outLen signature : BitVec 32) (opcode : BitVec 8) : Instr :=
  if cbwAccepted check outLen signature then
    match scsiRow opcode with
    | .testUnitReady => .scsiTestUnitReady
    | .inquiry => .scsiInquiry
    | .readCapacity10 => .scsiReadCapacity10
    | .unsupported => .scsiUnsupported opcode
  else .scsiInvalidCbw outLen signature opcode

-- ## EVENT

/-- The event of a code; codes 0xA..0xF are reserved (30_encoding.md R55, R63). -/
def eventOfCode : BitVec 4 → Option Event
  | 0x0 => some .busReset
  | 0x1 => some .ep0TrcptIn
  | 0x2 => some .ep0TrcptOut
  | 0x3 => some .ep0Setup
  | 0x4 => some .ep0StallIn
  | 0x5 => some .ep0StallOut
  | 0x6 => some .ep1TrcptIn
  | 0x7 => some .ep1StallIn
  | 0x8 => some .ep2TrcptOut
  | 0x9 => some .ep2StallOut
  | _ => none

/-- The EVENT row of an event. -/
def Event.instr : Event → Instr
  | .busReset => .busReset
  | .ep0TrcptIn => .ep0TrcptIn
  | .ep0TrcptOut => .ep0TrcptOut
  | .ep0Setup => .ep0Setup
  | .ep0StallIn => .ep0StallIn
  | .ep0StallOut => .ep0StallOut
  | .ep1TrcptIn => .ep1TrcptIn
  | .ep1StallIn => .ep1StallIn
  | .ep2TrcptOut => .ep2TrcptOut
  | .ep2StallOut => .ep2StallOut

-- ## BOT_CELL

/-- The 5-bit word of a cell, bot_state in bits 4:2 and the event in bits 1:0 (30_encoding.md R56). -/
def botCellWord (st : BotState) (ev : BotEvent) : BitVec 5 := st.code ++ ev.code

/-- The cell of a (state, event) pair (43_bot_engine.md R105); the reserved states have none. -/
def cellInstr : BotState → BotEvent → Option Instr
  | .expectingCbw, .bulkOut => some .botExpectingCbwBulkOut
  | .expectingCbw, .bulkInComplete => some .botExpectingCbwBulkInComplete
  | .expectingCbw, .stallCleared => some .botExpectingCbwStallCleared
  | .dataInPending, .bulkOut => some .botDataInPendingBulkOut
  | .dataInPending, .bulkInComplete => some .botDataInPendingBulkInComplete
  | .dataInPending, .stallCleared => some .botDataInPendingStallCleared
  | .expectingDataOut, .bulkOut => some .botExpectingDataOutBulkOut
  | .expectingDataOut, .bulkInComplete => some .botExpectingDataOutBulkInComplete
  | .expectingDataOut, .stallCleared => some .botExpectingDataOutStallCleared
  | .cswPending, .bulkOut => some .botCswPendingBulkOut
  | .cswPending, .bulkInComplete => some .botCswPendingBulkInComplete
  | .cswPending, .stallCleared => some .botCswPendingStallCleared
  | .stallPending, .bulkOut => some .botStallPendingBulkOut
  | .stallPending, .bulkInComplete => some .botStallPendingBulkInComplete
  | .stallPending, .stallCleared => some .botStallPendingStallCleared
  | .error, .bulkOut => some .botErrorBulkOut
  | .error, .bulkInComplete => some .botErrorBulkInComplete
  | .error, .stallCleared => some .botErrorStallCleared
  | .reserved6, _ => none
  | .reserved7, _ => none

/-- The BOT state of a 3-bit code (10_state.md R23). -/
def botStateOfCode : BitVec 3 → BotState
  | 0 => .expectingCbw
  | 1 => .dataInPending
  | 2 => .expectingDataOut
  | 3 => .cswPending
  | 4 => .stallPending
  | 5 => .error
  | 6 => .reserved6
  | _ => .reserved7

/-- The BOT event of a 2-bit code; 3 is no event (30_encoding.md R56). -/
def botEventOfCode : BitVec 2 → Option BotEvent
  | 0 => some .bulkOut
  | 1 => some .bulkInComplete
  | 2 => some .stallCleared
  | _ => none

-- ## OP

/-- The transfer type of a code; 1 and 3 are none of R57's (30_encoding.md R57). -/
def epTypeOfCode : BitVec 2 → Option EpType
  | 0 => some .control
  | 2 => some .bulk
  | _ => none

/-- The direction of a code (30_encoding.md R57). -/
def dirOfCode : BitVec 1 → Dir
  | 0 => .out
  | _ => .inn

/-- The buffer of a code (log 7). -/
def bufOfCode : BitVec 2 → PacketBuf
  | 0 => .ep0OutBuf
  | 1 => .ep0InBuf
  | 2 => .ep1InBuf
  | _ => .ep2OutBuf

-- ## The decoder

/-- Why a raw word is no instruction (30_encoding.md R63, 93_implementation_defined.md rows 4 to 6). -/
inductive DecodeError where
  /-- An event code 0xA..0xF: never raised, and refused. -/
  | reservedEvent (code : BitVec 4)
  /-- A BOT cell word with bot_state 6 or 7, or event 3. -/
  | reservedCell (v : BitVec 5)
  /-- Operation code 7. -/
  | reservedOp (code : BitVec 3)
  /-- A transfer-type code that is neither Control nor Bulk. -/
  | reservedType (ty : BitVec 2)
  /-- An (ep, dir) that names no bank. -/
  | noBank (ep : BitVec 2)
  deriving DecidableEq, Repr

/-- The operation an OP word is (30_encoding.md R57). -/
def decodeOp (code : BitVec 3) (ep : BitVec 2) (dir : BitVec 1) (ty buf : BitVec 2) (count : BitVec 32) (value : BitVec 8) :
    Except DecodeError Instr :=
  let needsBank (i : Instr) := if i.wf then Except.ok i else Except.error (.noBank ep)
  match code with
  | 0 =>
    match epTypeOfCode ty with
    | some t => needsBank (.configure ep (dirOfCode dir) t (bufOfCode buf) count.toNat)
    | none => .error (.reservedType ty)
  | 1 => needsBank (.armSend ep count.toNat)
  | 2 => needsBank (.bytesReceived ep)
  | 3 => needsBank (.release ep)
  | 4 => needsBank (.stall ep (dirOfCode dir))
  | 5 => needsBank (.clearStall ep (dirOfCode dir))
  | 6 => .ok (.writeAddress value)
  | _ => .error (.reservedOp code)

/-- The decoder, total on the raw words of all five formats. -/
def decode : Raw → Except DecodeError Instr
  | .setup w => .ok (decodeSetup (SetupRequest.ofWord w))
  | .cbwOp outLen signature opcode => .ok (decodeCbw Config.cbwCheck outLen signature opcode)
  | .event code =>
    match eventOfCode code with
    | some e => .ok e.instr
    | none => .error (.reservedEvent code)
  | .botCell v =>
    match botEventOfCode (v.extractLsb' 0 2) with
    | some ev =>
      match cellInstr (botStateOfCode (v.extractLsb' 2 3)) ev with
      | some i => .ok i
      | none => .error (.reservedCell v)
    | none => .error (.reservedCell v)
  | .op code ep dir ty buf count value => decodeOp code ep dir ty buf count value

-- ## The encoder

/-- A SETUP word from its five fields (30_encoding.md R51). -/
def encodeSetup (requestType request : BitVec 8) (value index length : BitVec 16) : Raw :=
  .setup (SetupRequest.word ⟨requestType, request, value, index, length⟩)

/-- An OP word without the argument fields the operation does not have. -/
def encodeOp (code : BitVec 3) (ep : BitVec 2) (dir : BitVec 1) : Raw := .op code ep dir 0 0 0 0

/-- The raw word of an instruction, written from the tables of 30_encoding.md R51, R55 to R57, R60 and R61. -/
def encode : Instr → Raw
  | .classGetMaxLun value length => encodeSetup 0xA1 0xFE value 0 length
  | .classInUnsupported request value length => encodeSetup 0xA1 request value 0 length
  | .getDescriptorDevice rt descIndex index length => encodeSetup (1#1 ++ rt) 6 (1#8 ++ descIndex) index length
  | .getDescriptorConfiguration rt descIndex index length => encodeSetup (1#1 ++ rt) 6 (2#8 ++ descIndex) index length
  | .getDescriptorUnsupported rt descType descIndex index length =>
      encodeSetup (1#1 ++ rt) 6 (descType ++ descIndex) index length
  | .inUnsupported rt request value index length => encodeSetup (1#1 ++ rt) request value index length
  | .setAddress rt value index => encodeSetup (0#1 ++ rt) 5 value index 0
  | .setConfiguration rt value index => encodeSetup (0#1 ++ rt) 9 value index 0
  | .clearFeatureEp81 rt value => encodeSetup (0#1 ++ rt) 1 value 0x0081 0
  | .outDefaultAck rt request value index => encodeSetup (0#1 ++ rt) request value index 0
  | .outWithData rt request value index length => encodeSetup (0#1 ++ rt) request value index length
  | .scsiInvalidCbw outLen signature opcode => .cbwOp outLen signature opcode
  | .scsiTestUnitReady => .cbwOp 31 usbcSignature 0x00
  | .scsiInquiry => .cbwOp 31 usbcSignature 0x12
  | .scsiReadCapacity10 => .cbwOp 31 usbcSignature 0x25
  | .scsiUnsupported opcode => .cbwOp 31 usbcSignature opcode
  | .busReset => .event 0x0
  | .ep0TrcptIn => .event 0x1
  | .ep0TrcptOut => .event 0x2
  | .ep0Setup => .event 0x3
  | .ep0StallIn => .event 0x4
  | .ep0StallOut => .event 0x5
  | .ep1TrcptIn => .event 0x6
  | .ep1StallIn => .event 0x7
  | .ep2TrcptOut => .event 0x8
  | .ep2StallOut => .event 0x9
  | .botExpectingCbwBulkOut => .botCell 0x00
  | .botExpectingCbwBulkInComplete => .botCell 0x01
  | .botExpectingCbwStallCleared => .botCell 0x02
  | .botDataInPendingBulkOut => .botCell 0x04
  | .botDataInPendingBulkInComplete => .botCell 0x05
  | .botDataInPendingStallCleared => .botCell 0x06
  | .botExpectingDataOutBulkOut => .botCell 0x08
  | .botExpectingDataOutBulkInComplete => .botCell 0x09
  | .botExpectingDataOutStallCleared => .botCell 0x0A
  | .botCswPendingBulkOut => .botCell 0x0C
  | .botCswPendingBulkInComplete => .botCell 0x0D
  | .botCswPendingStallCleared => .botCell 0x0E
  | .botStallPendingBulkOut => .botCell 0x10
  | .botStallPendingBulkInComplete => .botCell 0x11
  | .botStallPendingStallCleared => .botCell 0x12
  | .botErrorBulkOut => .botCell 0x14
  | .botErrorBulkInComplete => .botCell 0x15
  | .botErrorStallCleared => .botCell 0x16
  | .configure ep dir ty buf mps => .op 0 ep dir.code ty.code buf.code (BitVec.ofNat 32 mps) 0
  | .armSend ep n => .op 1 ep 0 0 0 (BitVec.ofNat 32 n) 0
  | .bytesReceived ep => encodeOp 2 ep 0
  | .release ep => encodeOp 3 ep 0
  | .stall ep dir => encodeOp 4 ep dir.code
  | .clearStall ep dir => encodeOp 5 ep dir.code
  | .writeAddress v => .op 6 0 0 0 0 0 v

/-- The format of an instruction's row in the opcode table. -/
def Raw.format : Raw → Format
  | .setup _ => .setup
  | .cbwOp _ _ _ => .cbwOp
  | .event _ => .event
  | .botCell _ => .botCell
  | .op _ _ _ _ _ _ _ => .op

-- ## The host's reading of a table word

/-- The raw word meant by an 8-bit table word, whose format is not given (log 6): the first of an event code, a BOT cell, the
operation code of an accepted CBW that has a row of its own, and the first byte of a SETUP word. -/
def rawOfTableByte (w : Nat) : Raw :=
  if w < 10 then .event (BitVec.ofNat 4 w)
  else if w < 0x17 && w % 4 != 3 then .botCell (BitVec.ofNat 5 w)
  else if w == 0x25 then .cbwOp 31 usbcSignature (BitVec.ofNat 8 w)
  else .setup (BitVec.ofNat 64 w)

/-- The raw word meant by a table word of `nbits` bits (log 6). A width of 3, 4 or 5 bits is that of one format alone, and more
than 8 bits are a SETUP word's. -/
def rawOfTableWord (nbits w : Nat) : Option Raw :=
  if nbits == 3 then some (.op (BitVec.ofNat 3 w) 0 0 0 0 0 0)
  else if nbits == 4 then some (.event (BitVec.ofNat 4 w))
  else if nbits == 5 then some (.botCell (BitVec.ofNat 5 w))
  else if nbits ≤ 8 then some (rawOfTableByte w)
  else if nbits ≤ 64 then some (.setup (BitVec.ofNat 64 w))
  else none

/-- The instruction the decoder reads from a table word (log 6). -/
def decodeTableWord (nbits w : Nat) : Option Instr :=
  match rawOfTableWord nbits w with
  | some raw =>
    match decode raw with
    | .ok i => some i
    | .error _ => none
  | none => none

end Sys2Proof
end

