-- ==== Sys2Proof/Machine/Operands.lean ====
section
/-! DEFINITION. The operand forms: the read-only tables, the fields of a received CBW and the bytes of a CSW (20_memory.md R36,
30_encoding.md R54, R59). -/

namespace Sys2Proof.Machine

/-- DEVICE_DESCRIPTOR of given parameter bytes (41_descriptor_table.md R78, R79). -/
def deviceDescriptorOf (p : Nat → Byte) : List Byte :=
  [18, 1, p 2, p 3, p 4, p 5, p 6, 64, p 8, p 9, p 10, p 11, p 12, p 13, p 14, p 15, p 16, 1]

/-- CONFIG_DESCRIPTOR of given parameter bytes (41_descriptor_table.md R80, R81). -/
def configDescriptorOf (p : Nat → Byte) : List Byte :=
  [9, 2, 32, 0, 1, p 5, p 6, p 7, p 8] ++
  [9, 4, 0, 0, 2, 0x08, 0x06, 0x50, p 17] ++
  [7, 5, 0x81, 0x02, 64, 0, p 24] ++
  [7, 5, 0x02, 0x02, 64, 0, p 31]

/-- INQUIRY_DATA of given bytes (00_scope.md R13). -/
def inquiryDataOf (p : Nat → Byte) : List Byte :=
  [p 0, p 1, p 2, p 3, p 4, p 5, p 6, p 7, p 8, p 9, p 10, p 11, p 12, p 13, p 14, p 15, p 16, p 17] ++
  [p 18, p 19, p 20, p 21, p 22, p 23, p 24, p 25, p 26, p 27, p 28, p 29, p 30, p 31, p 32, p 33, p 34, p 35]

/-- DEVICE_DESCRIPTOR. -/
def deviceDescriptor : List Byte := deviceDescriptorOf Config.deviceByte

/-- CONFIG_DESCRIPTOR. -/
def configDescriptor : List Byte := configDescriptorOf Config.configByte

/-- INQUIRY_DATA. -/
def inquiryData : List Byte := inquiryDataOf Config.inquiryByte

/-- READCAP_DATA: two big-endian 32-bit fields (20_memory.md R36, R39). -/
def readcapData : List Byte := be32bytes Config.lastLba ++ be32bytes Config.blockSize

/-- MAX_LUN_DATA (20_memory.md R36). -/
def maxLunData : List Byte := [0x00]

/-- The CBW fields of the bytes c[0..30] (30_encoding.md R54). -/
def Cbw.ofBytes (c : List Byte) : Cbw :=
  { signature := le32 (c.getD 0 0) (c.getD 1 0) (c.getD 2 0) (c.getD 3 0)
    tag := le32 (c.getD 4 0) (c.getD 5 0) (c.getD 6 0) (c.getD 7 0)
    dataTransferLength := le32 (c.getD 8 0) (c.getD 9 0) (c.getD 10 0) (c.getD 11 0)
    flags := c.getD 12 0
    lun := c.getD 13 0
    cbwcbLength := c.getD 14 0
    cbwcb := Vector.ofFn (fun i : Fin 16 => c.getD (15 + i.val) 0) }

/-- cbwcb[0], the SCSI operation code (30_encoding.md R54). -/
def Cbw.opcode (c : Cbw) : BitVec 8 := c.cbwcb[0]

/-- The 13 bytes of a CSW (30_encoding.md R59). -/
def Csw.bytes (w : Csw) : List Byte :=
  [0x55, 0x53, 0x42, 0x53] ++ le32bytes w.tag ++ le32bytes w.dataResidue ++ [w.status]

/-- The reference instance of DEVICE_DESCRIPTOR's parameter bytes, for test vectors only (41_descriptor_table.md R82). -/
def refDeviceByte : Nat → Byte
  | 3 => 0x02
  | 8 => 0x09
  | 9 => 0x12
  | 10 => 0x01
  | 13 => 0x01
  | _ => 0

/-- The reference instance of CONFIG_DESCRIPTOR's parameter bytes, for test vectors only (41_descriptor_table.md R82). -/
def refConfigByte : Nat → Byte
  | 5 => 0x01
  | 7 => 0x80
  | 8 => 0x32
  | _ => 0

/-- The reference instance of INQUIRY_DATA, for test vectors only (44_scsi_commands.md R125). -/
def refInquiryData : List Byte :=
  [0x00, 0x80, 0x04, 0x02, 0x1F, 0x00, 0x00, 0x00] ++
  [0x56, 0x45, 0x4E, 0x44, 0x4F, 0x52, 0x20, 0x20] ++
  [0x50, 0x52, 0x4F, 0x44, 0x55, 0x43, 0x54, 0x20, 0x20, 0x20, 0x20, 0x20, 0x20, 0x20, 0x20, 0x20] ++
  [0x30, 0x30, 0x30, 0x30]

end Sys2Proof.Machine
end

