-- ==== Sys2Proof/Machine/Ops.lean ====
section
/-! DEFINITION. The shared operations: sequencing, the bank table, the bank operations and their emission, taking an event, and
the responses to the error conditions. -/

namespace Sys2Proof.Machine

/-- Run `f` on what `x` answers; a fault or a refusal ends the step, and with it every effect before it (log 23). -/
def andThen {α β : Type} (x : Host.Outcome α Fault Refusal) (f : α → Host.Outcome β Fault Refusal) :
    Host.Outcome β Fault Refusal :=
  match x with
  | .next a => f a
  | .fault r => .fault r
  | .refused r => .refused r

-- ## The bank table

/-- BANK[ep][dir]. -/
def Banks.get (t : Banks) : Bank → BankDesc
  | .ep0Out => t.ep0Out
  | .ep0In => t.ep0In
  | .ep1In => t.ep1In
  | .ep2Out => t.ep2Out

/-- The bank table with one bank replaced. -/
def Banks.set (t : Banks) (b : Bank) (d : BankDesc) : Banks :=
  match b with
  | .ep0Out => { t with ep0Out := d }
  | .ep0In => { t with ep0In := d }
  | .ep1In => { t with ep1In := d }
  | .ep2Out => { t with ep2Out := d }

/-- BANK[ep][dir] of a state. -/
def State.bank (s : State) (b : Bank) : BankDesc := s.banks.get b

/-- The state with one bank replaced. -/
def State.setBank (s : State) (b : Bank) (d : BankDesc) : State := { s with banks := s.banks.set b d }

/-- The packet buffer a bank owns (20_memory.md R34). -/
def ownBuffer : Bank → PacketBuf
  | .ep0Out => .ep0OutBuf
  | .ep0In => .ep0InBuf
  | .ep1In => .ep1InBuf
  | .ep2Out => .ep2OutBuf

/-- The IN bank of an endpoint. -/
def inBank : InEp → Bank
  | .ep0 => .ep0In
  | .ep1 => .ep1In

/-- The OUT bank of an endpoint. -/
def outBank : OutEp → Bank
  | .ep0 => .ep0Out
  | .ep2 => .ep2Out

-- ## Bank operations (40_endpoint_bank.md section 1)

/-- What `Configure` leaves in a bank (40_endpoint_bank.md R66). -/
def BankDesc.configuredAs (ty : EpType) (buf : PacketBuf) (mps : Nat) : BankDesc :=
  { bufferAddress := Config.bufAddr buf
    maxPacketCode := Config.mpsCode mps
    byteCount := 0
    ready := false
    configured := true
    epType := ty
    maxPacketSize := mps
    stall := false }

/-- `Configure` (40_endpoint_bank.md R66). -/
def configureBank (b : Bank) (ty : EpType) (buf : PacketBuf) (mps : Nat) (s : State) : Host.Outcome State Fault Refusal :=
  if buf = ownBuffer b ∧ mps ≤ 64 then .next (s.setBank b (.configuredAs ty buf mps)) else .fault .badConfigure

/-- `ArmSend` (40_endpoint_bank.md R67). -/
def armBank (ep : InEp) (n : Nat) (s : State) : Host.Outcome State Fault Refusal :=
  if 64 < n then .fault .armOverflow
  else .next (s.setBank (inBank ep) { s.bank (inBank ep) with byteCount := BitVec.ofNat 32 n, ready := true })

/-- `BytesReceived` (40_endpoint_bank.md R68). -/
def bytesReceivedOn (ep : OutEp) (s : State) : BitVec 32 := (s.bank (outBank ep)).byteCount

/-- The state after `Release` (40_endpoint_bank.md R69). -/
def releaseBank (ep : OutEp) (s : State) : State := s.setBank (outBank ep) { s.bank (outBank ep) with ready := true }

/-- The state after `Stall` or `ClearStall` (40_endpoint_bank.md R70, R71). -/
def setStall (b : Bank) (v : Bool) (s : State) : State := s.setBank b { s.bank b with stall := v }

/-- The state effect of a bank operation. -/
def applyOp (op : BankOp) (s : State) : Host.Outcome State Fault Refusal :=
  match op with
  | .configure b ty buf mps => configureBank b ty buf mps s
  | .armSend ep n => armBank ep n s
  | .release ep => .next (releaseBank ep s)
  | .stall b => .next (setStall b true s)
  | .clearStall b => .next (setStall b false s)
  | .writeAddress v => .next { s with devAddr := v }

/-- The state with an operation appended to the event's output list. -/
def State.pushOp (s : State) (op : BankOp) : State := { s with out := { s.out with ops := s.out.ops ++ [op] } }

/-- `emit Op(args)` (00_scope.md section 3): append the operation and apply its effect. -/
def emit (op : BankOp) (s : State) : Host.Outcome State Fault Refusal :=
  andThen (applyOp op s) fun t => .next (t.pushOp op)

/-- Emit a list of operations in order. -/
def emitAll : List BankOp → State → Host.Outcome State Fault Refusal
  | [], s => .next s
  | op :: ops, s => andThen (emit op s) (emitAll ops)

-- ## Taking an event (60_exceptions.md R130 to R132)

/-- Taking an event: its flag is cleared on entry and its output list starts empty. Nothing is saved, no vector is read and no
mode changes, so its end restores nothing (60_exceptions.md R131, R132). -/
def takeEvent (e : Event) (s : State) : State :=
  { s.setFlag e false with out := Output.empty }

-- ## Outcomes of the BOT engine

/-- What `handle` and the rules it runs answer: the state and the Outcome returned (43_bot_engine.md R104). -/
abbrev CellResult := Host.Outcome (State × BotOutcome) Fault Refusal

/-- The Outcome a cell or command run on its own returned, put where it can be seen (log 1). -/
def recordOutcome (r : CellResult) : Host.Outcome State Fault Refusal :=
  andThen r fun p => .next { p.1 with out := { p.1.out with outcome := some p.2 } }

/-- `apply_outcome` (43_bot_engine.md R114). -/
def applyOutcome (o : BotOutcome) (s : State) : Host.Outcome State Fault Refusal :=
  match o with
  | .send n => emit (.armSend .ep1 n) s
  | .noData => .next s
  | .requestStall => emit (.stall .ep1In) s

-- ## Responses to the error conditions (60_exceptions.md R135 to R138)

/-- Response to UnsupportedRequest: STALL the control pipe (60_exceptions.md R135). -/
def raiseUnsupportedRequest (s : State) : Host.Outcome State Fault Refusal :=
  andThen (emitAll [.stall .ep0Out, .stall .ep0In] s) fun t => .next { t with ep0State := .expectSetup }

/-- Response to UnsupportedCommand: fail the command and STALL bulk IN (60_exceptions.md R136). -/
def raiseUnsupportedCommand (s : State) : CellResult :=
  .next ({ s with csw := { s.csw with status := 1 }, botState := .stallPending }, .requestStall)

/-- Response to SequenceViolation: enter Error (60_exceptions.md R137). -/
def raiseSequenceViolation (s : State) : CellResult := .next ({ s with botState := .error }, .noData)

/-- Response to MalformedCBW: enter Error and STALL bulk IN (60_exceptions.md R138). -/
def raiseMalformedCbw (s : State) : CellResult := .next ({ s with botState := .error }, .requestStall)

end Sys2Proof.Machine
end

