-- ==== Sys2Proof/Machine/BankOps.lean ====
section
/-! DEFINITION. The OP rows: each bank operation run on its own (40_endpoint_bank.md section 1). An (ep, dir) that names no bank
has no meaning in the spec and is refused by name (log 12). -/

namespace Sys2Proof.Machine

/-- Configure (40_endpoint_bank.md R66). -/
def execConfigure (ep : BitVec 2) (dir : Dir) (ty : EpType) (buf : PacketBuf) (mps : Nat) (s : State) :
    Host.Outcome State Fault Refusal :=
  match bankOf ep dir with
  | some b => emit (.configure b ty buf mps) s
  | none => .refused .noSuchBank

/-- ArmSend (40_endpoint_bank.md R67). -/
def execArmSend (ep : BitVec 2) (n : Nat) (s : State) : Host.Outcome State Fault Refusal :=
  match inEpOf ep with
  | some e => emit (.armSend e n) s
  | none => .refused .noSuchBank

/-- BytesReceived (40_endpoint_bank.md R68): a read, in no output list; what it returns is recorded (log 1). -/
def execBytesReceived (ep : BitVec 2) (s : State) : Host.Outcome State Fault Refusal :=
  match outEpOf ep with
  | some e => .next { s with out := { s.out with received := some (bytesReceivedOn e s) } }
  | none => .refused .noSuchBank

/-- Release (40_endpoint_bank.md R69). -/
def execRelease (ep : BitVec 2) (s : State) : Host.Outcome State Fault Refusal :=
  match outEpOf ep with
  | some e => emit (.release e) s
  | none => .refused .noSuchBank

/-- Stall (40_endpoint_bank.md R70). -/
def execStall (ep : BitVec 2) (dir : Dir) (s : State) : Host.Outcome State Fault Refusal :=
  match bankOf ep dir with
  | some b => emit (.stall b) s
  | none => .refused .noSuchBank

/-- ClearStall (40_endpoint_bank.md R71). -/
def execClearStall (ep : BitVec 2) (dir : Dir) (s : State) : Host.Outcome State Fault Refusal :=
  match bankOf ep dir with
  | some b => emit (.clearStall b) s
  | none => .refused .noSuchBank

/-- WriteAddress (40_endpoint_bank.md R72). -/
def execWriteAddress (v : BitVec 8) (s : State) : Host.Outcome State Fault Refusal :=
  emit (.writeAddress v) s

end Sys2Proof.Machine
end

