-- ==== Sys2Proof/Machine/Scsi.lean ====
section
/-! DEFINITION. The CSW formatter, the CBW parser and the SCSI commands (43_bot_engine.md R106, 44_scsi_commands.md). A command
rule is run with the CBW already accepted. -/

namespace Sys2Proof.Machine

/-- The state after `build_csw` (43_bot_engine.md R106), but for the bytes of EP1_IN_BUF. -/
def State.withCsw (s : State) : State :=
  { s with csw := { s.csw with tag := s.cbw.tag, dataResidue := s.remaining } }

/-- `build_csw` (43_bot_engine.md R106). -/
def buildCsw (s : State) : CellResult :=
  andThen (memWrite s.withCsw .ep1InBuf 0 s.withCsw.csw.bytes) fun t => .next (t, .send 13)

/-- Stage the CSW and wait for it to be taken: what 43_bot_engine.md R107, R109 and R110 and 44_scsi_commands.md R121 share. -/
def stageCsw (s : State) : CellResult :=
  andThen (buildCsw s) fun r => .next ({ r.1 with botState := .cswPending }, r.2)

/-- Stage the first bytes of a response table as the data stage: what 44_scsi_commands.md R122 and R123 share. The length is
`min(data_transfer_length, length of the table)`. `remaining` is decremented by it and never below 0 (10_state.md R26; log 11). -/
def stageData (t : List Byte) (s : State) : CellResult :=
  let n := min s.cbw.dataTransferLength.toNat t.length
  andThen (tableRead t 0 n) fun v =>
  andThen (memWrite s .ep1InBuf 0 v) fun u =>
  .next ({ u with remaining := BitVec.ofNat 32 (u.remaining.toNat - n), botState := .dataInPending }, .send n)

/-- TEST_UNIT_READY (44_scsi_commands.md R121). -/
def scsiTur (s : State) : CellResult := stageCsw s

/-- INQUIRY (44_scsi_commands.md R122). -/
def scsiInquiry (s : State) : CellResult := stageData inquiryData s

/-- READ_CAPACITY_10 (44_scsi_commands.md R123). -/
def scsiReadcap (s : State) : CellResult := stageData readcapData s

/-- Every other operation code (44_scsi_commands.md R124). -/
def scsiUnsupported (s : State) : CellResult := raiseUnsupportedCommand s

/-- An invalid CBW (44_scsi_commands.md R119, R120). -/
def scsiInvalid (s : State) : CellResult := raiseMalformedCbw s

/-- `cbw_valid(out_len)` (44_scsi_commands.md R119): under None it reads nothing. -/
def cbwValid (check : CbwCheck) (s : State) : Host.Outcome Bool Fault Refusal :=
  match check with
  | .off => .next true
  | .strict =>
    andThen (memRead s .ep2OutBuf 0 4) fun c =>
    .next (cbwAccepted .strict (bytesReceivedOn .ep2 s) (le32 (c.getD 0 0) (c.getD 1 0) (c.getD 2 0) (c.getD 3 0)))

/-- The state with a CBW accepted from its 31 bytes (44_scsi_commands.md R120). -/
def acceptCbw (c : List Byte) (s : State) : State :=
  let w := Cbw.ofBytes c
  { s with cbw := w, remaining := w.dataTransferLength, csw := { s.csw with status := 0 } }

/-- The SCSI row of an accepted CBW, run (44_scsi_commands.md R120). -/
def runScsi (s : State) : CellResult :=
  match scsiRow s.cbw.opcode with
  | .testUnitReady => scsiTur s
  | .inquiry => scsiInquiry s
  | .readCapacity10 => scsiReadcap s
  | .unsupported => scsiUnsupported s

/-- ExpectingCBW × BulkOut under either CBW_CHECK (44_scsi_commands.md R120). -/
def takeCbw (check : CbwCheck) (s : State) : CellResult :=
  andThen (cbwValid check s) fun ok =>
  if ok then andThen (memRead s .ep2OutBuf 0 31) fun c => runScsi (acceptCbw c s)
  else scsiInvalid s

/-- SCSI_INVALID_CBW. The operands are only reported (60_exceptions.md R138; log 8, log 20). -/
def execScsiInvalidCbw (_outLen _signature : BitVec 32) (_opcode : BitVec 8) (s : State) : Host.Outcome State Fault Refusal :=
  recordOutcome (scsiInvalid s)

/-- SCSI_TEST_UNIT_READY. -/
def execScsiTestUnitReady (s : State) : Host.Outcome State Fault Refusal := recordOutcome (scsiTur s)

/-- SCSI_INQUIRY. -/
def execScsiInquiry (s : State) : Host.Outcome State Fault Refusal := recordOutcome (scsiInquiry s)

/-- SCSI_READ_CAPACITY_10. -/
def execScsiReadCapacity10 (s : State) : Host.Outcome State Fault Refusal := recordOutcome (scsiReadcap s)

/-- SCSI_UNSUPPORTED. The opcode is only reported (60_exceptions.md R136; log 20). -/
def execScsiUnsupported (_opcode : BitVec 8) (s : State) : Host.Outcome State Fault Refusal :=
  recordOutcome (scsiUnsupported s)

end Sys2Proof.Machine
end

