-- ==== Sys2Proof/Machine/Bot.lean ====
section
/-! DEFINITION. The BOT transition function, a definition per (state, event) cell, and the four bulk events (43_bot_engine.md). -/

namespace Sys2Proof.Machine

-- ## The rules the cells share

/-- CSWPending × BulkInComplete: the command cycle is closed (43_bot_engine.md R108). -/
def closeCommand (s : State) : CellResult := .next ({ s with botState := .expectingCbw }, .noData)

/-- Nothing to send and nothing to change (43_bot_engine.md R112, R113). -/
def answerNoData (s : State) : CellResult := .next (s, .noData)

-- ## The cells (43_bot_engine.md R105)

/-- ExpectingCbw × BulkOut (44_scsi_commands.md R120). -/
def cellExpectingCbwBulkOut (s : State) : CellResult := takeCbw Config.cbwCheck s

/-- ExpectingCbw × BulkInComplete (43_bot_engine.md R111). -/
def cellExpectingCbwBulkInComplete (s : State) : CellResult := raiseSequenceViolation s

/-- ExpectingCbw × StallCleared (43_bot_engine.md R112). -/
def cellExpectingCbwStallCleared (s : State) : CellResult := answerNoData s

/-- DataInPending × BulkOut (43_bot_engine.md R111). -/
def cellDataInPendingBulkOut (s : State) : CellResult := raiseSequenceViolation s

/-- DataInPending × BulkInComplete (43_bot_engine.md R107). -/
def cellDataInPendingBulkInComplete (s : State) : CellResult := stageCsw s

/-- DataInPending × StallCleared (43_bot_engine.md R112). -/
def cellDataInPendingStallCleared (s : State) : CellResult := answerNoData s

/-- ExpectingDataOut × BulkOut (43_bot_engine.md R109). -/
def cellExpectingDataOutBulkOut (s : State) : CellResult := stageCsw s

/-- ExpectingDataOut × BulkInComplete (43_bot_engine.md R111). -/
def cellExpectingDataOutBulkInComplete (s : State) : CellResult := raiseSequenceViolation s

/-- ExpectingDataOut × StallCleared (43_bot_engine.md R112). -/
def cellExpectingDataOutStallCleared (s : State) : CellResult := answerNoData s

/-- CswPending × BulkOut (43_bot_engine.md R111). -/
def cellCswPendingBulkOut (s : State) : CellResult := raiseSequenceViolation s

/-- CswPending × BulkInComplete (43_bot_engine.md R108). -/
def cellCswPendingBulkInComplete (s : State) : CellResult := closeCommand s

/-- CswPending × StallCleared (43_bot_engine.md R112). -/
def cellCswPendingStallCleared (s : State) : CellResult := answerNoData s

/-- StallPending × BulkOut (43_bot_engine.md R111). -/
def cellStallPendingBulkOut (s : State) : CellResult := raiseSequenceViolation s

/-- StallPending × BulkInComplete (43_bot_engine.md R111). -/
def cellStallPendingBulkInComplete (s : State) : CellResult := raiseSequenceViolation s

/-- StallPending × StallCleared (43_bot_engine.md R110). -/
def cellStallPendingStallCleared (s : State) : CellResult := stageCsw s

/-- Error × BulkOut (43_bot_engine.md R113). -/
def cellErrorBulkOut (s : State) : CellResult := answerNoData s

/-- Error × BulkInComplete (43_bot_engine.md R113). -/
def cellErrorBulkInComplete (s : State) : CellResult := answerNoData s

/-- Error × StallCleared (43_bot_engine.md R113). -/
def cellErrorStallCleared (s : State) : CellResult := answerNoData s

/-- `handle(ev)` (43_bot_engine.md R104, R105): the cell of the BOT state and the event; BadBotState in a reserved state. It
emits no bank operation. -/
def handle (ev : BotEvent) (s : State) : CellResult :=
  match s.botState, ev with
  | .expectingCbw, .bulkOut => cellExpectingCbwBulkOut s
  | .expectingCbw, .bulkInComplete => cellExpectingCbwBulkInComplete s
  | .expectingCbw, .stallCleared => cellExpectingCbwStallCleared s
  | .dataInPending, .bulkOut => cellDataInPendingBulkOut s
  | .dataInPending, .bulkInComplete => cellDataInPendingBulkInComplete s
  | .dataInPending, .stallCleared => cellDataInPendingStallCleared s
  | .expectingDataOut, .bulkOut => cellExpectingDataOutBulkOut s
  | .expectingDataOut, .bulkInComplete => cellExpectingDataOutBulkInComplete s
  | .expectingDataOut, .stallCleared => cellExpectingDataOutStallCleared s
  | .cswPending, .bulkOut => cellCswPendingBulkOut s
  | .cswPending, .bulkInComplete => cellCswPendingBulkInComplete s
  | .cswPending, .stallCleared => cellCswPendingStallCleared s
  | .stallPending, .bulkOut => cellStallPendingBulkOut s
  | .stallPending, .bulkInComplete => cellStallPendingBulkInComplete s
  | .stallPending, .stallCleared => cellStallPendingStallCleared s
  | .error, .bulkOut => cellErrorBulkOut s
  | .error, .bulkInComplete => cellErrorBulkInComplete s
  | .error, .stallCleared => cellErrorStallCleared s
  | .reserved6, _ => .fault .badBotState
  | .reserved7, _ => .fault .badBotState

-- ## The BOT_CELL rows: each cell run on its own, its Outcome recorded (log 1, log 9)

/-- BOT_ExpectingCBW_BulkOut. -/
def execBotExpectingCbwBulkOut (s : State) : Host.Outcome State Fault Refusal :=
  recordOutcome (cellExpectingCbwBulkOut s)

/-- BOT_ExpectingCBW_BulkInComplete. -/
def execBotExpectingCbwBulkInComplete (s : State) : Host.Outcome State Fault Refusal :=
  recordOutcome (cellExpectingCbwBulkInComplete s)

/-- BOT_ExpectingCBW_StallCleared. -/
def execBotExpectingCbwStallCleared (s : State) : Host.Outcome State Fault Refusal :=
  recordOutcome (cellExpectingCbwStallCleared s)

/-- BOT_DataInPending_BulkOut. -/
def execBotDataInPendingBulkOut (s : State) : Host.Outcome State Fault Refusal :=
  recordOutcome (cellDataInPendingBulkOut s)

/-- BOT_DataInPending_BulkInComplete. -/
def execBotDataInPendingBulkInComplete (s : State) : Host.Outcome State Fault Refusal :=
  recordOutcome (cellDataInPendingBulkInComplete s)

/-- BOT_DataInPending_StallCleared. -/
def execBotDataInPendingStallCleared (s : State) : Host.Outcome State Fault Refusal :=
  recordOutcome (cellDataInPendingStallCleared s)

/-- BOT_ExpectingDataOut_BulkOut. -/
def execBotExpectingDataOutBulkOut (s : State) : Host.Outcome State Fault Refusal :=
  recordOutcome (cellExpectingDataOutBulkOut s)

/-- BOT_ExpectingDataOut_BulkInComplete. -/
def execBotExpectingDataOutBulkInComplete (s : State) : Host.Outcome State Fault Refusal :=
  recordOutcome (cellExpectingDataOutBulkInComplete s)

/-- BOT_ExpectingDataOut_StallCleared. -/
def execBotExpectingDataOutStallCleared (s : State) : Host.Outcome State Fault Refusal :=
  recordOutcome (cellExpectingDataOutStallCleared s)

/-- BOT_CSWPending_BulkOut. -/
def execBotCswPendingBulkOut (s : State) : Host.Outcome State Fault Refusal :=
  recordOutcome (cellCswPendingBulkOut s)

/-- BOT_CSWPending_BulkInComplete. -/
def execBotCswPendingBulkInComplete (s : State) : Host.Outcome State Fault Refusal :=
  recordOutcome (cellCswPendingBulkInComplete s)

/-- BOT_CSWPending_StallCleared. -/
def execBotCswPendingStallCleared (s : State) : Host.Outcome State Fault Refusal :=
  recordOutcome (cellCswPendingStallCleared s)

/-- BOT_StallPending_BulkOut. -/
def execBotStallPendingBulkOut (s : State) : Host.Outcome State Fault Refusal :=
  recordOutcome (cellStallPendingBulkOut s)

/-- BOT_StallPending_BulkInComplete. -/
def execBotStallPendingBulkInComplete (s : State) : Host.Outcome State Fault Refusal :=
  recordOutcome (cellStallPendingBulkInComplete s)

/-- BOT_StallPending_StallCleared. -/
def execBotStallPendingStallCleared (s : State) : Host.Outcome State Fault Refusal :=
  recordOutcome (cellStallPendingStallCleared s)

/-- BOT_Error_BulkOut. -/
def execBotErrorBulkOut (s : State) : Host.Outcome State Fault Refusal :=
  recordOutcome (cellErrorBulkOut s)

/-- BOT_Error_BulkInComplete. -/
def execBotErrorBulkInComplete (s : State) : Host.Outcome State Fault Refusal :=
  recordOutcome (cellErrorBulkInComplete s)

/-- BOT_Error_StallCleared. -/
def execBotErrorStallCleared (s : State) : Host.Outcome State Fault Refusal :=
  recordOutcome (cellErrorStallCleared s)

-- ## The bulk events

/-- EP2_TRCPT_OUT (43_bot_engine.md R115): the release follows the outcome, in every BOT state. -/
def execEp2TrcptOut (s : State) : Host.Outcome State Fault Refusal :=
  andThen (handle .bulkOut s) fun r =>
  andThen (applyOutcome r.2 r.1) fun t =>
  emit (.release .ep2) t

/-- EP1_TRCPT_IN (43_bot_engine.md R116). -/
def execEp1TrcptIn (s : State) : Host.Outcome State Fault Refusal :=
  andThen (handle .bulkInComplete s) fun r => applyOutcome r.2 r.1

/-- EP1_STALL_IN: no operation (43_bot_engine.md R117). -/
def execEp1StallIn (s : State) : Host.Outcome State Fault Refusal := .next s

/-- EP2_STALL_OUT: no operation (43_bot_engine.md R118). -/
def execEp2StallOut (s : State) : Host.Outcome State Fault Refusal := .next s

end Sys2Proof.Machine
end

