-- ==== Sys2Proof/Machine/Control.lean ====
section
/-! DEFINITION. The control transfer engine: the descriptor resolver, the stage procedures, the eleven requests, the five EP0
events and the bus reset (41_descriptor_table.md, 42_control_engine.md, 70_reset_and_hazards.md R148). -/

namespace Sys2Proof.Machine

-- ## The resolver

/-- The descriptor of a type; `none` is Unsupported (41_descriptor_table.md R83). -/
def descriptorOf (t : BitVec 8) : Option (List Byte) :=
  if t == 1 then some deviceDescriptor
  else if t == 2 then some configDescriptor
  else none

/-- `resolve(t, L)`: the first min(L, length) bytes of the descriptor of type t, or `none` for Unsupported
(41_descriptor_table.md R83). -/
def resolve (t : BitVec 8) (len : BitVec 16) : Host.Outcome (Option (List Byte)) Fault Refusal :=
  match descriptorOf t with
  | some d => andThen (tableRead d 0 (min len.toNat d.length)) fun v => .next (some v)
  | none => .next none

-- ## Stage procedures

/-- `in_stage(B, m)` with m the length of B (42_control_engine.md R92). -/
def inStage (v : List Byte) (s : State) : Host.Outcome State Fault Refusal :=
  let n := min v.length Config.ep0Mps
  andThen (memWrite s .ep0InBuf 0 (v.take n)) fun t =>
  andThen (emit (.armSend .ep0 n) t) fun u =>
  .next { u with ep0State := .dataStageIn }

/-- `zlp_ack()` (42_control_engine.md R93). -/
def zlpAck (s : State) : Host.Outcome State Fault Refusal :=
  andThen (emit (.armSend .ep0 0) s) fun t => .next { t with ep0State := .noDataStatus }

/-- GET_DESCRIPTOR of a type and a length (42_control_engine.md R98). -/
def getDescriptor (descType : BitVec 8) (length : BitVec 16) (s : State) : Host.Outcome State Fault Refusal :=
  andThen (resolve descType length) fun r =>
  match r with
  | some v => inStage v s
  | none => raiseUnsupportedRequest s

-- ## Requests (42_control_engine.md section 3). The operands are the fields of the latched request (log 10).

/-- CLASS_GET_MAX_LUN (42_control_engine.md R96). -/
def execClassGetMaxLun (_value length : BitVec 16) (s : State) : Host.Outcome State Fault Refusal :=
  andThen (tableRead maxLunData 0 (min length.toNat 1)) fun v => inStage v s

/-- CLASS_IN_UNSUPPORTED (42_control_engine.md R97). -/
def execClassInUnsupported (_request : BitVec 8) (_value _length : BitVec 16) (s : State) :
    Host.Outcome State Fault Refusal :=
  raiseUnsupportedRequest s

/-- GET_DESCRIPTOR_DEVICE (42_control_engine.md R98). -/
def execGetDescriptorDevice (_rt : BitVec 7) (_descIndex : BitVec 8) (_index length : BitVec 16) (s : State) :
    Host.Outcome State Fault Refusal :=
  getDescriptor 1 length s

/-- GET_DESCRIPTOR_CONFIGURATION (42_control_engine.md R98). -/
def execGetDescriptorConfiguration (_rt : BitVec 7) (_descIndex : BitVec 8) (_index length : BitVec 16) (s : State) :
    Host.Outcome State Fault Refusal :=
  getDescriptor 2 length s

/-- GET_DESCRIPTOR_UNSUPPORTED (42_control_engine.md R98). -/
def execGetDescriptorUnsupported (_rt : BitVec 7) (descType _descIndex : BitVec 8) (_index length : BitVec 16) (s : State) :
    Host.Outcome State Fault Refusal :=
  getDescriptor descType length s

/-- IN_UNSUPPORTED (42_control_engine.md R97). -/
def execInUnsupported (_rt : BitVec 7) (_request : BitVec 8) (_value _index _length : BitVec 16) (s : State) :
    Host.Outcome State Fault Refusal :=
  raiseUnsupportedRequest s

/-- SET_ADDRESS (42_control_engine.md R99). -/
def execSetAddress (_rt : BitVec 7) (value _index : BitVec 16) (s : State) : Host.Outcome State Fault Refusal :=
  zlpAck { s with addrPending := newAddrOf value, addrPendingValid := true }

/-- SET_CONFIGURATION (42_control_engine.md R100). -/
def execSetConfiguration (_rt : BitVec 7) (_value _index : BitVec 16) (s : State) : Host.Outcome State Fault Refusal :=
  andThen (emitAll [.configure .ep1In .bulk .ep1InBuf Config.bulkMps, .configure .ep2Out .bulk .ep2OutBuf Config.bulkMps,
    .release .ep2] s) fun t => zlpAck t

/-- CLEAR_FEATURE_EP81 (42_control_engine.md R101). -/
def execClearFeatureEp81 (_rt : BitVec 7) (_value : BitVec 16) (s : State) : Host.Outcome State Fault Refusal :=
  andThen (emit (.clearStall .ep1In) s) fun t =>
  andThen (handle .stallCleared t) fun r =>
  andThen (applyOutcome r.2 r.1) fun u =>
  zlpAck u

/-- OUT_DEFAULT_ACK (42_control_engine.md R102). -/
def execOutDefaultAck (_rt : BitVec 7) (_request : BitVec 8) (_value _index : BitVec 16) (s : State) :
    Host.Outcome State Fault Refusal :=
  zlpAck s

/-- OUT_WITH_DATA (42_control_engine.md R103). -/
def execOutWithData (_rt : BitVec 7) (_request : BitVec 8) (_value _index _length : BitVec 16) (s : State) :
    Host.Outcome State Fault Refusal :=
  raiseUnsupportedRequest s

/-- The request rule of a latched SETUP (42_control_engine.md R84, 30_encoding.md R60). -/
def runRequest (r : SetupRequest) (s : State) : Host.Outcome State Fault Refusal :=
  match setupRow r with
  | .classGetMaxLun => execClassGetMaxLun r.value r.length s
  | .classInUnsupported => execClassInUnsupported r.request r.value r.length s
  | .getDescriptorDevice => execGetDescriptorDevice r.typeBits (descIndexOf r.value) r.index r.length s
  | .getDescriptorConfiguration => execGetDescriptorConfiguration r.typeBits (descIndexOf r.value) r.index r.length s
  | .getDescriptorUnsupported =>
      execGetDescriptorUnsupported r.typeBits (descTypeOf r.value) (descIndexOf r.value) r.index r.length s
  | .inUnsupported => execInUnsupported r.typeBits r.request r.value r.index r.length s
  | .setAddress => execSetAddress r.typeBits r.value r.index s
  | .setConfiguration => execSetConfiguration r.typeBits r.value r.index s
  | .clearFeatureEp81 => execClearFeatureEp81 r.typeBits r.value s
  | .outDefaultAck => execOutDefaultAck r.typeBits r.request r.value r.index s
  | .outWithData => execOutWithData r.typeBits r.request r.value r.index r.length s

-- ## EP0 events

/-- The latch of a SETUP: the request is kept and a pending address dropped (42_control_engine.md R84). -/
def latchSetup (r : SetupRequest) (s : State) : State := { s with setup := r, addrPendingValid := false }

/-- The operations every SETUP event emits before its request (42_control_engine.md R84). -/
def setupPreamble : List BankOp := [.clearStall .ep0Out, .clearStall .ep0In, .release .ep0]

/-- EP0_SETUP (42_control_engine.md R84). -/
def execEp0Setup (s : State) : Host.Outcome State Fault Refusal :=
  andThen (memRead s .ep0OutBuf 0 8) fun p =>
  andThen (emitAll setupPreamble (latchSetup (SetupRequest.ofBytes p) s)) fun t =>
  runRequest (SetupRequest.ofBytes p) t

/-- The STATUS stage of a no-data request completed (42_control_engine.md R87). -/
def completeStatus (s : State) : Host.Outcome State Fault Refusal :=
  if s.addrPendingValid then
    andThen (emit (.writeAddress (0x80 ||| s.addrPending.setWidth 8)) s) fun t =>
    .next { t with addrPendingValid := false, ep0State := .expectSetup }
  else .next { s with ep0State := .expectSetup }

/-- EP0_TRCPT_IN (42_control_engine.md R85 to R88). -/
def execEp0TrcptIn (s : State) : Host.Outcome State Fault Refusal :=
  match s.ep0State with
  | .dataStageIn => .next { s with ep0State := .expectSetup }
  | .noDataStatus => completeStatus s
  | .expectSetup => .next s
  | .dataStageOut => .next s

/-- EP0_TRCPT_OUT (42_control_engine.md R89). -/
def execEp0TrcptOut (s : State) : Host.Outcome State Fault Refusal := emit (.release .ep0) s

/-- EP0_STALL_IN: no operation (42_control_engine.md R90). -/
def execEp0StallIn (s : State) : Host.Outcome State Fault Refusal := .next s

/-- EP0_STALL_OUT: no operation (42_control_engine.md R91). -/
def execEp0StallOut (s : State) : Host.Outcome State Fault Refusal := .next s

-- ## Bus reset

/-- The registers after a bus reset has been taken (70_reset_and_hazards.md R148). -/
def resetRegisters (s : State) : State :=
  { s with
    ep0State := .expectSetup
    setup := ⟨0, 0, 0, 0, 0⟩
    addrPendingValid := false
    addrPending := 0
    botState := .expectingCbw
    cbw := Cbw.zero
    csw := ⟨0, 0, 0⟩
    remaining := 0 }

/-- BUS_RESET (70_reset_and_hazards.md R148). -/
def execBusReset (s : State) : Host.Outcome State Fault Refusal :=
  andThen (emitAll [.configure .ep0Out .control .ep0OutBuf Config.ep0Mps, .configure .ep0In .control .ep0InBuf Config.ep0Mps,
    .release .ep0] s) fun t => .next (resetRegisters t)

end Sys2Proof.Machine
end

