-- ==== Sys2Proof/Machine/Dispatch.lean ====
section
/-! DEFINITION. The meaning of every instruction: one arm per row of spec/opcode_table.json. A row is run as the rule that selects it
runs it (log 9). -/

namespace Sys2Proof.Machine

def exec (i : Instr) (s : State) : Host.Outcome State Fault Refusal :=
  match i with
  -- SETUP rows
  | .classGetMaxLun value length => Sys2Proof.Machine.execClassGetMaxLun value length s
  | .classInUnsupported request value length => Sys2Proof.Machine.execClassInUnsupported request value length s
  | .getDescriptorDevice rt descIndex index length => Sys2Proof.Machine.execGetDescriptorDevice rt descIndex index length s
  | .getDescriptorConfiguration rt descIndex index length => Sys2Proof.Machine.execGetDescriptorConfiguration rt descIndex index length s
  | .getDescriptorUnsupported rt descType descIndex index length => Sys2Proof.Machine.execGetDescriptorUnsupported rt descType descIndex index length s
  | .inUnsupported rt request value index length => Sys2Proof.Machine.execInUnsupported rt request value index length s
  | .setAddress rt value index => Sys2Proof.Machine.execSetAddress rt value index s
  | .setConfiguration rt value index => Sys2Proof.Machine.execSetConfiguration rt value index s
  | .clearFeatureEp81 rt value => Sys2Proof.Machine.execClearFeatureEp81 rt value s
  | .outDefaultAck rt request value index => Sys2Proof.Machine.execOutDefaultAck rt request value index s
  | .outWithData rt request value index length => Sys2Proof.Machine.execOutWithData rt request value index length s
  -- CBW_OP rows
  | .scsiInvalidCbw outLen signature opcode => Sys2Proof.Machine.execScsiInvalidCbw outLen signature opcode s
  | .scsiTestUnitReady => Sys2Proof.Machine.execScsiTestUnitReady s
  | .scsiInquiry => Sys2Proof.Machine.execScsiInquiry s
  | .scsiReadCapacity10 => Sys2Proof.Machine.execScsiReadCapacity10 s
  | .scsiUnsupported opcode => Sys2Proof.Machine.execScsiUnsupported opcode s
  -- EVENT rows
  | .busReset => Sys2Proof.Machine.execBusReset s
  | .ep0TrcptIn => Sys2Proof.Machine.execEp0TrcptIn s
  | .ep0TrcptOut => Sys2Proof.Machine.execEp0TrcptOut s
  | .ep0Setup => Sys2Proof.Machine.execEp0Setup s
  | .ep0StallIn => Sys2Proof.Machine.execEp0StallIn s
  | .ep0StallOut => Sys2Proof.Machine.execEp0StallOut s
  | .ep1TrcptIn => Sys2Proof.Machine.execEp1TrcptIn s
  | .ep1StallIn => Sys2Proof.Machine.execEp1StallIn s
  | .ep2TrcptOut => Sys2Proof.Machine.execEp2TrcptOut s
  | .ep2StallOut => Sys2Proof.Machine.execEp2StallOut s
  -- BOT_CELL rows
  | .botExpectingCbwBulkOut => Sys2Proof.Machine.execBotExpectingCbwBulkOut s
  | .botExpectingCbwBulkInComplete => Sys2Proof.Machine.execBotExpectingCbwBulkInComplete s
  | .botExpectingCbwStallCleared => Sys2Proof.Machine.execBotExpectingCbwStallCleared s
  | .botDataInPendingBulkOut => Sys2Proof.Machine.execBotDataInPendingBulkOut s
  | .botDataInPendingBulkInComplete => Sys2Proof.Machine.execBotDataInPendingBulkInComplete s
  | .botDataInPendingStallCleared => Sys2Proof.Machine.execBotDataInPendingStallCleared s
  | .botExpectingDataOutBulkOut => Sys2Proof.Machine.execBotExpectingDataOutBulkOut s
  | .botExpectingDataOutBulkInComplete => Sys2Proof.Machine.execBotExpectingDataOutBulkInComplete s
  | .botExpectingDataOutStallCleared => Sys2Proof.Machine.execBotExpectingDataOutStallCleared s
  | .botCswPendingBulkOut => Sys2Proof.Machine.execBotCswPendingBulkOut s
  | .botCswPendingBulkInComplete => Sys2Proof.Machine.execBotCswPendingBulkInComplete s
  | .botCswPendingStallCleared => Sys2Proof.Machine.execBotCswPendingStallCleared s
  | .botStallPendingBulkOut => Sys2Proof.Machine.execBotStallPendingBulkOut s
  | .botStallPendingBulkInComplete => Sys2Proof.Machine.execBotStallPendingBulkInComplete s
  | .botStallPendingStallCleared => Sys2Proof.Machine.execBotStallPendingStallCleared s
  | .botErrorBulkOut => Sys2Proof.Machine.execBotErrorBulkOut s
  | .botErrorBulkInComplete => Sys2Proof.Machine.execBotErrorBulkInComplete s
  | .botErrorStallCleared => Sys2Proof.Machine.execBotErrorStallCleared s
  -- OP rows
  | .configure ep dir ty buf mps => Sys2Proof.Machine.execConfigure ep dir ty buf mps s
  | .armSend ep n => Sys2Proof.Machine.execArmSend ep n s
  | .bytesReceived ep => Sys2Proof.Machine.execBytesReceived ep s
  | .release ep => Sys2Proof.Machine.execRelease ep s
  | .stall ep dir => Sys2Proof.Machine.execStall ep dir s
  | .clearStall ep dir => Sys2Proof.Machine.execClearStall ep dir s
  | .writeAddress v => Sys2Proof.Machine.execWriteAddress v s

end Sys2Proof.Machine
end

