-- ==== Sys2Proof/Machine/Platform.lean ====
section
/-! DEFINITION. The platform's host steps (40_endpoint_bank.md R73 to R77) and the pseudo-lines of the event-script notation
(30_encoding.md R65). -/

namespace Sys2Proof.Machine

/-- The state with a host step's result shown, and nothing else. -/
def withResult (r : HostResult) (s : State) : State := { s with out := { Output.empty with result := some r } }

/-- What a SETUP packet does to the banks and flags once its bytes are stored (40_endpoint_bank.md R73). -/
def setupTaken (s : State) : State :=
  (((s.setBank .ep0Out { s.bank .ep0Out with byteCount := 8, ready := false }).setBank .ep0In
    { s.bank .ep0In with ready := false }).setFlag .ep0Setup true)

/-- `host SETUP p` (40_endpoint_bank.md R73). Another length has no move (R77). -/
def hostSetup (p : List Byte) (s : State) : Host.Outcome State Fault Refusal :=
  if p.length ≠ 8 then .refused .noHostMove
  else if (s.bank .ep0Out).configured then
    andThen (memWrite s .ep0OutBuf 0 p) fun t => .next (withResult .ack (setupTaken t))
  else .next (withResult .noHandshake s)

/-- The event a bulk or control OUT packet raises when it is received. -/
def outTrcpt : OutEp → Event
  | .ep0 => .ep0TrcptOut
  | .ep2 => .ep2TrcptOut

/-- The event an OUT packet raises when it is answered with STALL. -/
def outStall : OutEp → Event
  | .ep0 => .ep0StallOut
  | .ep2 => .ep2StallOut

/-- The event an IN packet raises when it is taken. -/
def inTrcpt : InEp → Event
  | .ep0 => .ep0TrcptIn
  | .ep1 => .ep1TrcptIn

/-- The event an IN token raises when it is answered with STALL. -/
def inStall : InEp → Event
  | .ep0 => .ep0StallIn
  | .ep1 => .ep1StallIn

/-- `host OUT` to an endpoint that has an OUT bank (40_endpoint_bank.md R74). -/
def hostOutOn (ep : OutEp) (d : List Byte) (s : State) : Host.Outcome State Fault Refusal :=
  let b := s.bank (outBank ep)
  if !b.configured then .next (withResult .noHandshake s)
  else if b.stall then .next (withResult .stall (s.setFlag (outStall ep) true))
  else if !b.ready then .next (withResult .nak s)
  else
    andThen (memWrite s (ownBuffer (outBank ep)) 0 d) fun t =>
    .next (withResult .ack
      ((t.setBank (outBank ep) { b with byteCount := BitVec.ofNat 32 d.length, ready := false }).setFlag (outTrcpt ep) true))

/-- The OUT endpoint of an endpoint number (40_endpoint_bank.md R74). -/
def hostOutEp : Nat → Option OutEp
  | 0 => some .ep0
  | 2 => some .ep2
  | _ => none

/-- The IN endpoint of an endpoint number (40_endpoint_bank.md R75). -/
def hostInEp : Nat → Option InEp
  | 0 => some .ep0
  | 1 => some .ep1
  | _ => none

/-- `host OUT ep<k> d` (40_endpoint_bank.md R74). More than 64 bytes and another endpoint have no move (R77). -/
def hostOut (k : Nat) (d : List Byte) (s : State) : Host.Outcome State Fault Refusal :=
  match hostOutEp k with
  | some ep => if 64 < d.length then .refused .noHostMove else hostOutOn ep d s
  | none => .refused .noHostMove

/-- `host IN` to an endpoint that has an IN bank (40_endpoint_bank.md R75). -/
def hostInOn (ep : InEp) (s : State) : Host.Outcome State Fault Refusal :=
  let b := s.bank (inBank ep)
  if !b.configured then .next (withResult .noHandshake s)
  else if b.stall then .next (withResult .stall (s.setFlag (inStall ep) true))
  else if !b.ready then .next (withResult .nak s)
  else
    andThen (memRead s (ownBuffer (inBank ep)) 0 b.byteCount.toNat) fun d =>
    .next (withResult (.data d) ((s.setBank (inBank ep) { b with ready := false }).setFlag (inTrcpt ep) true))

/-- `host IN ep<k>` (40_endpoint_bank.md R75). Another endpoint has no move (R77). -/
def hostIn (k : Nat) (s : State) : Host.Outcome State Fault Refusal :=
  match hostInEp k with
  | some ep => hostInOn ep s
  | none => .refused .noHostMove

/-- A bank as a bus reset leaves it (40_endpoint_bank.md R76). -/
def BankDesc.deconfigured (d : BankDesc) : BankDesc :=
  { d with configured := false, ready := false, stall := false, byteCount := 0 }

/-- `host RESET` (40_endpoint_bank.md R76). -/
def hostReset (s : State) : Host.Outcome State Fault Refusal :=
  .next (withResult .noHandshake
    { s with
      flags := { Flags.none with busReset := true }
      devAddr := 0x00
      banks := ⟨s.banks.ep0Out.deconfigured, s.banks.ep0In.deconfigured, s.banks.ep1In.deconfigured,
        s.banks.ep2Out.deconfigured⟩ })

/-- A host step. -/
def hostStep (m : HostMove) (s : State) : Host.Outcome State Fault Refusal :=
  match m with
  | .setup p => hostSetup p s
  | .out k d => hostOut k d s
  | .inn k => hostIn k s
  | .reset => hostReset s

-- ## Pseudo-lines (30_encoding.md R65)

/-- `GET_DESCRIPTOR(t, w)`. -/
def lineGetDescriptor (t : Byte) (w : BitVec 16) : ScriptLine :=
  .host (.setup ([0x80, 0x06, 0x00, t, 0x00, 0x00] ++ le16bytes w))

/-- `SET_ADDRESS(a)`. -/
def lineSetAddress (a : Byte) : ScriptLine := .host (.setup [0x00, 0x05, a, 0x00, 0x00, 0x00, 0x00, 0x00])

/-- `SET_CONFIGURATION(v)`. -/
def lineSetConfiguration (v : Byte) : ScriptLine := .host (.setup [0x00, 0x09, v, 0x00, 0x00, 0x00, 0x00, 0x00])

/-- The eight bytes of `CLEAR_HALT_IN`. -/
def clearHaltInBytes : List Byte := [0x02, 0x01, 0x00, 0x00, 0x81, 0x00, 0x00, 0x00]

/-- `CLEAR_HALT_IN`. -/
def lineClearHaltIn : ScriptLine := .host (.setup clearHaltInBytes)

/-- `GET_MAX_LUN`. -/
def lineGetMaxLun : ScriptLine := .host (.setup [0xA1, 0xFE, 0x00, 0x00, 0x00, 0x00, 0x01, 0x00])

/-- `MSC_RESET`. -/
def lineMscReset : ScriptLine := .host (.setup [0x21, 0xFF, 0x00, 0x00, 0x00, 0x00, 0x00, 0x00])

/-- The 31 bytes of `CBW(tag, len, flags, op, ...)` with its command block zero-padded to 16 bytes. -/
def cbwBytes (tag len : BitVec 32) (flags cbwcbLength : Byte) (cb : List Byte) : List Byte :=
  [0x55, 0x53, 0x42, 0x43] ++ le32bytes tag ++ le32bytes len ++ [flags, 0x00, cbwcbLength] ++
    (cb ++ List.replicate 16 0).take 16

/-- `CBW(tag, len, flags, op, ...)`. -/
def lineCbw (tag len : BitVec 32) (flags cbwcbLength : Byte) (cb : List Byte) : ScriptLine :=
  .host (.out 2 (cbwBytes tag len flags cbwcbLength cb))

end Sys2Proof.Machine
end

