-- ==== Sys2Proof/Machine/Fetch.lean ====
section
/-! DEFINITION. What a step does next (60_exceptions.md R130, 30_encoding.md R65; log 2, log 4), and placing a table word where
the next step takes it (log 3, log 6). -/

namespace Sys2Proof.Machine

/-- What one step of the whole system is. -/
inductive Move where
  /-- Nothing is enabled: no line is left and no flag is pending, or an engine line finds no flag pending. -/
  | idle
  /-- A host step of the platform. -/
  | host (m : HostMove)
  /-- The engine takes an event. -/
  | event (e : Event)
  deriving DecidableEq, Repr

/-- The engine's move: the pending event with the lowest code, if there is one (60_exceptions.md R129, R130). -/
def engineMove (s : State) : Move :=
  match s.flags.next with
  | some e => .event e
  | none => .idle

/-- The next move and the state it starts from, the script line it uses up being removed. A used-up script leaves the engine to
take its pending events (70_reset_and_hazards.md R159). -/
def nextMove (s : State) : Move × State :=
  match s.script with
  | [] => (engineMove s, s)
  | .host m :: rest => (.host m, { s with script := rest })
  | .engine :: rest => (engineMove s, { s with script := rest })
  | .engineStar :: rest =>
    match engineMove s with
    | .event e => (.event e, s)
    | _ => (.idle, { s with script := rest })

/-- The flags with an event pending and none of a lower code, so that it is taken next (60_exceptions.md R129). -/
def Flags.raiseFirst (f : Flags) (e : Event) : Flags :=
  let below (x : Event) : Bool := decide (e.code ≤ x.code) && f.get x
  Flags.set (e := e) (v := true)
  { busReset := below .busReset
    ep0TrcptIn := below .ep0TrcptIn
    ep0TrcptOut := below .ep0TrcptOut
    ep0Setup := below .ep0Setup
    ep0StallIn := below .ep0StallIn
    ep0StallOut := below .ep0StallOut
    ep1TrcptIn := below .ep1TrcptIn
    ep1StallIn := below .ep1StallIn
    ep2TrcptOut := below .ep2TrcptOut
    ep2StallOut := below .ep2StallOut }

/-- The state in which the next step is the engine taking the given event. -/
def State.eventNext (s : State) (e : Event) : State :=
  { s with flags := s.flags.raiseFirst e, script := .engine :: s.script }

/-- The eight bytes of a SETUP word, lowest byte first (30_encoding.md R51). -/
def setupWordBytes (w : BitVec 64) : List Byte := (SetupRequest.ofWord w).bytes

/-- A raw word placed where the engine decodes it: a SETUP in EP0_OUT_BUF, a CBW in EP2_OUT_BUF, an event in its flag (with the
SETUP packet the platform stores before it raises EP0_SETUP, here of zero bytes), a BOT cell in `bot_state` and the event that
calls it. Operations are no input of the engine, and a table word never reads as one (log 6). -/
def placeRaw (raw : Raw) (s : State) : State :=
  match raw with
  | .setup w => (s.writeBytes .ep0OutBuf 0 (setupWordBytes w)).eventNext .ep0Setup
  | .cbwOp _ _ opcode =>
      let t := ({ s with botState := .expectingCbw }.writeBytes .ep2OutBuf 0 (cbwBytes 0 0 0 0 [opcode]))
      (t.setBank .ep2Out { t.bank .ep2Out with byteCount := 31 }).eventNext .ep2TrcptOut
  | .event code =>
    match eventOfCode code with
    | some .ep0Setup => (s.writeBytes .ep0OutBuf 0 (setupWordBytes 0)).eventNext .ep0Setup
    | some e => s.eventNext e
    | none => s
  | .botCell v =>
      let t := { s with botState := botStateOfCode (v.extractLsb' 2 3) }
      match botEventOfCode (v.extractLsb' 0 2) with
      | some .bulkOut => t.eventNext .ep2TrcptOut
      | some .bulkInComplete => t.eventNext .ep1TrcptIn
      | some .stallCleared => (t.writeBytes .ep0OutBuf 0 clearHaltInBytes).eventNext .ep0Setup
      | none => s
  | .op _ _ _ _ _ _ _ => s

/-- A table word placed where the engine decodes it (log 3). -/
def placeTableWord (nbits w : Nat) (s : State) : State :=
  match rawOfTableWord nbits w with
  | some raw => placeRaw raw s
  | none => s

end Sys2Proof.Machine
end

