-- ==== Sys2Proof/Machine/Step.lean ====
section
/-! DEFINITION. One step of the whole system: a host step, an event taken by the engine, or nothing (60_exceptions.md R130). -/

namespace Sys2Proof.Machine

/-- One step: the next move, run on the state it starts from. Taking an event clears its flag and runs the event's row. -/
def step (s : State) : Host.Outcome State Fault Refusal :=
  match nextMove s with
  | (.idle, t) => .next t
  | (.host m, t) => hostStep m t
  | (.event e, t) => exec e.instr (takeEvent e t)

/-- The state in which the next step runs the instruction of a table word (log 3, log 6). -/
def State.withFetchWord (s : State) (nbits w : Nat) : State := placeTableWord nbits w s

end Sys2Proof.Machine
end

