-- ==== Sys2Proof/Safety.lean ====
section
/-! DEFINITION. The terms of the claims: what two states agree on, the invariant of the machine, the host's duties, and the SETUP rows
as the opcode table writes them. -/

namespace Sys2Proof.Machine

-- ## What a step leaves unchanged

/-- The control engine's registers and the device-address register agree. -/
structure SameControl (s t : State) : Prop where
  ep0State : t.ep0State = s.ep0State
  setup : t.setup = s.setup
  addrPendingValid : t.addrPendingValid = s.addrPendingValid
  addrPending : t.addrPending = s.addrPending
  devAddr : t.devAddr = s.devAddr

/-- The BOT engine's registers agree. -/
structure SameBot (s t : State) : Prop where
  botState : t.botState = s.botState
  cbw : t.cbw = s.cbw
  csw : t.csw = s.csw
  remaining : t.remaining = s.remaining

/-- The control engine's registers but for `ep0_state` agree, and the device-address register does. -/
structure SameControlButState (s t : State) : Prop where
  setup : t.setup = s.setup
  addrPendingValid : t.addrPendingValid = s.addrPendingValid
  addrPending : t.addrPending = s.addrPending
  devAddr : t.devAddr = s.devAddr

/-- Every bank but the listed ones agrees. -/
def SameBanksBut (l : List Bank) (s t : State) : Prop := ∀ b, b ∉ l → t.bank b = s.bank b

/-- The pending flags and the host's script agree. -/
def SameInputs (s t : State) : Prop := t.flags = s.flags ∧ t.script = s.script

/-- Every byte of every packet buffer reads as before. -/
def SameBytes (s t : State) : Prop := ∀ b i, t.byteAt b i = s.byteAt b i

/-- The bytes `v` stand at offsets 0 up of a buffer, and every other byte of every buffer reads as before. -/
def StoredFrom0 (buf : PacketBuf) (v : List Byte) (s t : State) : Prop :=
  (∀ i, i < v.length → some (t.byteAt buf i) = v[i]?) ∧
  ∀ b i, (b ≠ buf ∨ v.length ≤ i) → t.byteAt b i = s.byteAt b i

/-- The operations a step emitted, after those the list held before it. -/
def Emits (ops : List BankOp) (s t : State) : Prop := t.out.ops = s.out.ops ++ ops

-- ## The terminal actions of a control transfer and the staging of bulk packets

/-- A response staged into EP0 IN and armed, and nothing else changed (42_control_engine.md R92). -/
structure Ep0Staged (v : List Byte) (s t : State) : Prop where
  stored : StoredFrom0 .ep0InBuf v s t
  armed : t.bank .ep0In = { s.bank .ep0In with byteCount := BitVec.ofNat 32 v.length, ready := true }
  ep0State : t.ep0State = .dataStageIn
  banks : SameBanksBut [.ep0In] s t
  control : SameControlButState s t
  bot : SameBot s t
  inputs : SameInputs s t
  ops : Emits [.armSend .ep0 v.length] s t

/-- A zero-length packet armed on EP0 IN as the acknowledgement, and nothing else changed (42_control_engine.md R93). -/
structure Ep0Acked (s t : State) : Prop where
  armed : t.bank .ep0In = { s.bank .ep0In with byteCount := 0, ready := true }
  ep0State : t.ep0State = .noDataStatus
  banks : SameBanksBut [.ep0In] s t
  control : SameControlButState s t
  bot : SameBot s t
  inputs : SameInputs s t
  bytes : SameBytes s t
  ops : Emits [.armSend .ep0 0] s t

/-- The control pipe stalled, and nothing else changed (60_exceptions.md R135). -/
structure Ep0Stalled (s t : State) : Prop where
  outBank : t.bank .ep0Out = { s.bank .ep0Out with stall := true }
  inBank : t.bank .ep0In = { s.bank .ep0In with stall := true }
  ep0State : t.ep0State = .expectSetup
  banks : SameBanksBut [.ep0Out, .ep0In] s t
  control : SameControlButState s t
  bot : SameBot s t
  inputs : SameInputs s t
  bytes : SameBytes s t
  ops : Emits [.stall .ep0Out, .stall .ep0In] s t

/-- The 13 bytes of the CSW that closes the current command (43_bot_engine.md R106, 30_encoding.md R59). -/
def closingCsw (s : State) : List Byte :=
  [0x55, 0x53, 0x42, 0x53] ++ le32bytes s.cbw.tag ++ le32bytes s.remaining ++ [s.csw.status]

/-- The current command's CSW staged in EP1_IN_BUF and recorded in `csw`, CSWPending entered, no operation emitted, and nothing
else changed (43_bot_engine.md R106, R107). -/
structure CswStaged (s t : State) : Prop where
  stored : StoredFrom0 .ep1InBuf (closingCsw s) s t
  csw : t.csw = ⟨s.cbw.tag, s.remaining, s.csw.status⟩
  botState : t.botState = .cswPending
  cbw : t.cbw = s.cbw
  remaining : t.remaining = s.remaining
  control : SameControl s t
  banks : SameBanksBut [] s t
  inputs : SameInputs s t
  ops : Emits [] s t

/-- Response bytes staged in EP1_IN_BUF as the data stage, `remaining` (which an accepted CBW makes at least as large) decremented by
their number, DataInPending entered, no operation emitted, and nothing else changed (44_scsi_commands.md R122, R123). -/
structure DataStaged (v : List Byte) (s t : State) : Prop where
  stored : StoredFrom0 .ep1InBuf v s t
  remaining : v.length ≤ s.remaining.toNat → t.remaining = s.remaining - BitVec.ofNat 32 v.length
  botState : t.botState = .dataInPending
  cbw : t.cbw = s.cbw
  csw : t.csw = s.csw
  control : SameControl s t
  banks : SameBanksBut [] s t
  inputs : SameInputs s t
  ops : Emits [] s t

/-- Everything but the BOT registers and the recorded outcome agrees. -/
structure OnlyBotChanges (s t : State) : Prop where
  control : SameControl s t
  banks : SameBanksBut [] s t
  inputs : SameInputs s t
  bytes : SameBytes s t
  ops : Emits [] s t

/-- The operations `apply_outcome` emits (43_bot_engine.md R114). -/
def outcomeOps : BotOutcome → List BankOp
  | .send n => [.armSend .ep1 n]
  | .noData => []
  | .requestStall => [.stall .ep1In]

/-- The bulk-IN bank after `apply_outcome` (43_bot_engine.md R114). -/
def outcomeBank (o : BotOutcome) (d : BankDesc) : BankDesc :=
  match o with
  | .send n => { d with byteCount := BitVec.ofNat 32 n, ready := true }
  | .noData => d
  | .requestStall => { d with stall := true }

/-- Whether an operation acts on an EP0 bank. -/
def onEp0 : BankOp → Bool
  | .configure b _ _ _ => b == .ep0Out || b == .ep0In
  | .armSend ep _ => ep == .ep0
  | .release ep => ep == .ep0
  | .stall b => b == .ep0Out || b == .ep0In
  | .clearStall b => b == .ep0Out || b == .ep0In
  | .writeAddress _ => false

/-- The CBW fields of the bytes in EP2_OUT_BUF (30_encoding.md R54). -/
def receivedCbw (s : State) : Cbw :=
  let b := s.byteAt .ep2OutBuf
  { signature := le32 (b 0) (b 1) (b 2) (b 3)
    tag := le32 (b 4) (b 5) (b 6) (b 7)
    dataTransferLength := le32 (b 8) (b 9) (b 10) (b 11)
    flags := b 12
    lun := b 13
    cbwcbLength := b 14
    cbwcb := Vector.ofFn fun i : Fin 16 => b (15 + i.val) }

/-- The SETUP fields of the bytes in EP0_OUT_BUF (30_encoding.md R51). -/
def receivedSetup (s : State) : SetupRequest :=
  let b := s.byteAt .ep0OutBuf
  ⟨b 0, b 1, le16 (b 2) (b 3), le16 (b 4) (b 5), le16 (b 6) (b 7)⟩

-- ## The invariant

/-- The BOT state is one of the six named states (10_state.md R23). -/
def BotNamed (s : State) : Prop := s.botState ≠ .reserved6 ∧ s.botState ≠ .reserved7

/-- A configured bank names its own buffer, its fixed size and its fixed type (20_memory.md R34, 40_endpoint_bank.md R66,
42_control_engine.md R100, 70_reset_and_hazards.md R148). -/
def BankConsistent (b : Bank) (d : BankDesc) : Prop :=
  d.configured = true →
    d.bufferAddress = Config.bufAddr (ownBuffer b) ∧ d.maxPacketCode = Config.mpsCode 64 ∧ d.maxPacketSize = 64 ∧
    d.epType = (match b with | .ep0Out => .control | .ep0In => .control | .ep1In => .bulk | .ep2Out => .bulk)

/-- What every step keeps, from every state. -/
structure Inv (s : State) : Prop where
  /-- Each packet buffer is in canonical form. -/
  mem : ∀ p, Memory.wf (s.bufs.get p)
  /-- `bot_state` holds a state some rule writes (10_state.md R23, 43_bot_engine.md R105). -/
  bot : BotNamed s ∧ s.botState ≠ .expectingDataOut
  /-- DataStageOut is never entered (10_state.md R19). -/
  ep0 : s.ep0State ≠ .dataStageOut
  /-- `csw.status` is 0 or 1 (10_state.md R25). -/
  status : s.csw.status = 0 ∨ s.csw.status = 1
  /-- `remaining` never exceeds `cbw.data_transfer_length` (10_state.md R26). -/
  residue : s.remaining.toNat ≤ s.cbw.dataTransferLength.toNat
  /-- A byte count is at most 64 (10_state.md R29). -/
  counts : ∀ b, (s.bank b).byteCount.toNat ≤ 64
  /-- A max packet size is at most 64 (10_state.md R29). -/
  sizes : ∀ b, (s.bank b).maxPacketSize ≤ 64
  /-- A bank's buffer address is one of the four buffers' (00_scope.md R16, 10_state.md R29). -/
  places : ∀ b, ∃ p, (s.bank b).bufferAddress = Config.bufAddr p
  /-- A configured bank is consistent with its buffer. -/
  banks : ∀ b, BankConsistent b (s.bank b)
  /-- The address register is 0 or has its bit 7 set (10_state.md R22, 40_endpoint_bank.md R72). -/
  address : s.devAddr = 0 ∨ s.devAddr.getLsbD 7 = true
  /-- A pending address belongs to a no-data STATUS stage (10_state.md R21). -/
  pendingAddress : s.addrPendingValid = true → s.ep0State = .noDataStatus
  /-- An EP0 IN packet armed or just taken belongs to a stage of a transaction (42_control_engine.md R88). -/
  ep0Packet : ((s.bank .ep0In).ready = true ∨ s.flags.ep0TrcptIn = true) →
    s.ep0State = .dataStageIn ∨ s.ep0State = .noDataStatus
  /-- An EP0 IN packet is not both armed and taken, and a SETUP waiting has cancelled it (40_endpoint_bank.md R73). -/
  ep0Single : (s.bank .ep0In).ready = true → s.flags.ep0TrcptIn = false ∧ s.flags.ep0Setup = false
  /-- A bulk-IN packet armed or just taken belongs to a command, or was armed before Error was entered (43_bot_engine.md R111). -/
  bulkPacket : ((s.bank .ep1In).ready = true ∨ s.flags.ep1TrcptIn = true) →
    s.botState = .dataInPending ∨ s.botState = .cswPending ∨ s.botState = .error
  /-- A bulk-IN packet is not both armed and taken. -/
  bulkSingle : (s.bank .ep1In).ready = true → s.flags.ep1TrcptIn = false
  /-- The CSW waiting to be taken closes the command of the last CBW (10_state.md R27). -/
  cswTag : s.botState = .cswPending → s.csw.tag = s.cbw.tag
  /-- A command waiting for its STALL to be cleared has failed and moved no data (43_bot_engine.md R110). -/
  failed : s.botState = .stallPending → s.csw.status = 1 ∧ s.remaining = s.cbw.dataTransferLength
  /-- A bus reset waiting to be taken is alone, and no bank is configured (40_endpoint_bank.md R76). -/
  resetAlone : s.flags.busReset = true → s.flags = { Flags.none with busReset := true } ∧
    ∀ b, (s.bank b).configured = false ∧ (s.bank b).ready = false
  /-- Bulk OUT is never stalled (43_bot_engine.md R118). -/
  bulkOut : (s.bank .ep2Out).stall = false ∧ s.flags.ep2StallOut = false

-- ## The host

/-- A host step the host may take (40_endpoint_bank.md R77). -/
def HostMove.allowed : HostMove → Bool
  | .setup p => p.length == 8
  | .out k d => (k == 0 || k == 2) && decide (d.length ≤ 64)
  | .inn k => k == 0 || k == 1
  | .reset => true

/-- A script line the host may write. -/
def lineAllowed : ScriptLine → Bool
  | .host m => HostMove.allowed m
  | .engine => true
  | .engineStar => true

/-- Every line still to run is one the host may write. -/
def ScriptAllowed (s : State) : Prop := ∀ l ∈ s.script, lineAllowed l = true

/-- No flag is pending (60_exceptions.md R146). -/
def Quiescent (s : State) : Prop := s.flags.next = none

/-- The end of a run: quiescent, with no line left to run (60_exceptions.md R146). -/
def EndState (s : State) : Prop := Quiescent s ∧ s.script = []

-- ## The SETUP rows of the opcode table

/-- A row of the opcode table: the word is the row's when `word AND mask = pattern`. -/
structure TableRow where
  row : SetupRow
  pattern : BitVec 64
  mask : BitVec 64

/-- The SETUP rows of spec/opcode_table.json in decode order. -/
def setupTable : List TableRow :=
  [⟨.classGetMaxLun, 0x000000000000FEA1, 0x0000FFFF0000FFFF⟩,
   ⟨.classInUnsupported, 0x00000000000000A1, 0x0000FFFF000000FF⟩,
   ⟨.getDescriptorDevice, 0x0000000001000680, 0x00000000FF00FF80⟩,
   ⟨.getDescriptorConfiguration, 0x0000000002000680, 0x00000000FF00FF80⟩,
   ⟨.getDescriptorUnsupported, 0x0000000000000680, 0x000000000000FF80⟩,
   ⟨.inUnsupported, 0x0000000000000080, 0x0000000000000080⟩,
   ⟨.setAddress, 0x0000000000000500, 0xFFFF00000000FF80⟩,
   ⟨.setConfiguration, 0x0000000000000900, 0xFFFF00000000FF80⟩,
   ⟨.clearFeatureEp81, 0x0000008100000100, 0xFFFFFFFF0000FF80⟩,
   ⟨.outDefaultAck, 0x0000000000000000, 0xFFFF000000000080⟩,
   ⟨.outWithData, 0x0000000000000000, 0x0000000000000080⟩]

/-- The first row of the table that a word matches (30_encoding.md R60). -/
def tableRowOf (w : BitVec 64) : Option SetupRow :=
  (setupTable.find? fun r => w &&& r.mask == r.pattern).map TableRow.row

end Sys2Proof.Machine
end

