-- ==== Sys2Proof/Certificates/Slice0/Obligations.lean ====
section
/-! DEFINITION. The statements for the provers. Each docstring names the rule or sentence of spec/ it formalises and, where it rests
on the spec's own decision or on the model's choice, says so. -/

open Sys2Proof Sys2Proof.Machine

-- ## Bank operations

/-- 40_endpoint_bank.md R66: `Configure` sets up its bank and clears byte_count, ready and stall. The clearing is the spec's own
decision D4. -/
def Obligations.ConfigureSetsUpItsBank : Prop :=
  ∀ (ep : BitVec 2) (dir : Dir) (ty : EpType) (mps : Nat) (b : Bank) (s : State),
    bankOf ep dir = some b → mps ≤ 64 →
    ∃ t, exec (.configure ep dir ty (ownBuffer b) mps) s = .next t ∧
      t.bank b =
        { bufferAddress := Config.bufAddr (ownBuffer b), maxPacketCode := Config.mpsCode mps, byteCount := 0,
          ready := false, configured := true, epType := ty, maxPacketSize := mps, stall := false } ∧
      SameBanksBut [b] s t ∧ SameControl s t ∧ SameBot s t ∧ SameInputs s t ∧ SameBytes s t ∧
      Emits [.configure b ty (ownBuffer b) mps] s t

/-- 40_endpoint_bank.md R66, 60_exceptions.md R139 (decision D37): a foreign buffer or a size above 64 faults. -/
def Obligations.ConfigureFaultsOnForeignBufferOrSize : Prop :=
  ∀ (ep : BitVec 2) (dir : Dir) (ty : EpType) (buf : PacketBuf) (mps : Nat) (b : Bank) (s : State),
    bankOf ep dir = some b → (buf ≠ ownBuffer b ∨ 64 < mps) →
    exec (.configure ep dir ty buf mps) s = .fault .badConfigure

/-- 40_endpoint_bank.md R67: `ArmSend` of at most 64 bytes stages the count and makes the IN bank ready, whatever the bank held;
more than 64 faults with ArmOverflow. -/
def Obligations.ArmSendStagesOrOverflows : Prop :=
  ∀ (ep : BitVec 2) (e : InEp) (n : Nat) (s : State), inEpOf ep = some e →
    (n ≤ 64 → ∃ t, exec (.armSend ep n) s = .next t ∧
      t.bank (inBank e) = { s.bank (inBank e) with byteCount := BitVec.ofNat 32 n, ready := true } ∧
      SameBanksBut [inBank e] s t ∧ SameControl s t ∧ SameBot s t ∧ SameInputs s t ∧ SameBytes s t ∧
      Emits [.armSend e n] s t) ∧
    (64 < n → exec (.armSend ep n) s = .fault .armOverflow)

/-- 40_endpoint_bank.md R68: `BytesReceived` returns the OUT bank's byte_count, ready or not, and changes nothing. -/
def Obligations.BytesReceivedReadsTheCount : Prop :=
  ∀ (ep : BitVec 2) (e : OutEp) (s : State), outEpOf ep = some e →
    ∃ t, exec (.bytesReceived ep) s = .next t ∧ t.out.received = some (s.bank (outBank e)).byteCount ∧
      SameBanksBut [] s t ∧ SameControl s t ∧ SameBot s t ∧ SameInputs s t ∧ SameBytes s t ∧ Emits [] s t

/-- 40_endpoint_bank.md R69: `Release` sets ready, keeps byte_count, and changes nothing in a released bank. -/
def Obligations.ReleaseMakesTheBankReady : Prop :=
  ∀ (ep : BitVec 2) (e : OutEp) (s : State), outEpOf ep = some e →
    ∃ t, exec (.release ep) s = .next t ∧
      t.bank (outBank e) = { s.bank (outBank e) with ready := true } ∧
      ((s.bank (outBank e)).ready = true → t.bank (outBank e) = s.bank (outBank e)) ∧
      SameBanksBut [outBank e] s t ∧ SameControl s t ∧ SameBot s t ∧ SameInputs s t ∧ SameBytes s t ∧
      Emits [.release e] s t

/-- 40_endpoint_bank.md R70: `Stall` sets stall, keeps ready and byte_count, and changes nothing in a stalled bank. -/
def Obligations.StallSetsTheStall : Prop :=
  ∀ (ep : BitVec 2) (dir : Dir) (b : Bank) (s : State), bankOf ep dir = some b →
    ∃ t, exec (.stall ep dir) s = .next t ∧ t.bank b = { s.bank b with stall := true } ∧
      ((s.bank b).stall = true → t.bank b = s.bank b) ∧
      SameBanksBut [b] s t ∧ SameControl s t ∧ SameBot s t ∧ SameInputs s t ∧ SameBytes s t ∧ Emits [.stall b] s t

/-- 40_endpoint_bank.md R71: `ClearStall` clears stall and keeps ready and byte_count (decision D4). -/
def Obligations.ClearStallClearsTheStall : Prop :=
  ∀ (ep : BitVec 2) (dir : Dir) (b : Bank) (s : State), bankOf ep dir = some b →
    ∃ t, exec (.clearStall ep dir) s = .next t ∧ t.bank b = { s.bank b with stall := false } ∧
      ((s.bank b).stall = false → t.bank b = s.bank b) ∧
      SameBanksBut [b] s t ∧ SameControl s t ∧ SameBot s t ∧ SameInputs s t ∧ SameBytes s t ∧
      Emits [.clearStall b] s t

/-- 40_endpoint_bank.md R72: `WriteAddress` writes dev_addr_reg and nothing else. -/
def Obligations.WriteAddressWritesTheRegister : Prop :=
  ∀ (v : BitVec 8) (s : State),
    ∃ t, exec (.writeAddress v) s = .next t ∧ t.devAddr = v ∧ t.ep0State = s.ep0State ∧ t.setup = s.setup ∧
      t.addrPendingValid = s.addrPendingValid ∧ t.addrPending = s.addrPending ∧
      SameBanksBut [] s t ∧ SameBot s t ∧ SameInputs s t ∧ SameBytes s t ∧ Emits [.writeAddress v] s t

/-- The model's own choice (log 12): an operation whose (ep, dir) names no bank of 10_state.md R28 is refused by name. -/
def Obligations.UnnamedBankIsRefused : Prop :=
  ∀ (ep : BitVec 2) (dir : Dir) (s : State),
    (bankOf ep dir = none →
      (∀ ty buf mps, exec (.configure ep dir ty buf mps) s = .refused .noSuchBank) ∧
      exec (.stall ep dir) s = .refused .noSuchBank ∧ exec (.clearStall ep dir) s = .refused .noSuchBank) ∧
    (inEpOf ep = none → ∀ n, exec (.armSend ep n) s = .refused .noSuchBank) ∧
    (outEpOf ep = none →
      exec (.release ep) s = .refused .noSuchBank ∧ exec (.bytesReceived ep) s = .refused .noSuchBank)

-- ## Control transfers

/-- 42_control_engine.md R92: `in_stage` stages the response truncated to 64 bytes, arms EP0 IN and enters DataStageIn. -/
def Obligations.InStageStagesAndArms : Prop :=
  ∀ (v : List Byte) (s : State), ∃ t, inStage v s = .next t ∧ Ep0Staged (v.take 64) s t

/-- 42_control_engine.md R93: `zlp_ack` arms an empty EP0 IN packet and enters NoDataStatus. -/
def Obligations.ZlpAckArmsAnEmptyPacket : Prop :=
  ∀ s : State, ∃ t, zlpAck s = .next t ∧ Ep0Acked s t

/-- 42_control_engine.md R96 (decision D15): GET_MAX_LUN stages min(wLength, 1) zero bytes, whatever wValue is. -/
def Obligations.GetMaxLunStagesZero : Prop :=
  ∀ (value length : BitVec 16) (s : State),
    ∃ t, exec (.classGetMaxLun value length) s = .next t ∧ Ep0Staged (List.replicate (min length.toNat 1) 0) s t

/-- 42_control_engine.md R98, 41_descriptor_table.md R83: GET_DESCRIPTOR stages the first min(wLength, 18) bytes of the device descriptor
or min(wLength, 32) of the configuration bundle, for every index; any other type stalls the control pipe (both directions:
decision D22). -/
def Obligations.GetDescriptorStagesThePrefixOrStalls : Prop :=
  ∀ (rt : BitVec 7) (descIndex : BitVec 8) (index length : BitVec 16) (s : State),
    (∃ t, exec (.getDescriptorDevice rt descIndex index length) s = .next t ∧
      Ep0Staged (deviceDescriptor.take (min length.toNat 18)) s t) ∧
    (∃ t, exec (.getDescriptorConfiguration rt descIndex index length) s = .next t ∧
      Ep0Staged (configDescriptor.take (min length.toNat 32)) s t) ∧
    (∀ descType : BitVec 8, descType ≠ 1 → descType ≠ 2 →
      ∃ t, exec (.getDescriptorUnsupported rt descType descIndex index length) s = .next t ∧ Ep0Stalled s t)

/-- 42_control_engine.md R97, R103, 60_exceptions.md R135: the requests the engine does not support stall the control pipe (the
decisions D16, D17 and D22 of the spec). -/
def Obligations.UnsupportedRequestsStallTheControlPipe : Prop :=
  ∀ (rt : BitVec 7) (request : BitVec 8) (value index length : BitVec 16) (s : State),
    (∃ t, exec (.classInUnsupported request value length) s = .next t ∧ Ep0Stalled s t) ∧
    (∃ t, exec (.inUnsupported rt request value index length) s = .next t ∧ Ep0Stalled s t) ∧
    (∃ t, exec (.outWithData rt request value index length) s = .next t ∧ Ep0Stalled s t)

/-- 42_control_engine.md R99: SET_ADDRESS keeps wValue[6:0] (decision D19) as the pending address, acknowledges, and leaves
dev_addr_reg alone. -/
def Obligations.SetAddressOnlyLatches : Prop :=
  ∀ (rt : BitVec 7) (value index : BitVec 16) (s : State),
    ∃ t, exec (.setAddress rt value index) s = .next t ∧
      t.addrPendingValid = true ∧ t.addrPending.toNat = value.toNat % 128 ∧ t.devAddr = s.devAddr ∧
      t.ep0State = .noDataStatus ∧ t.setup = s.setup ∧
      t.bank .ep0In = { s.bank .ep0In with byteCount := 0, ready := true } ∧
      SameBanksBut [.ep0In] s t ∧ SameBot s t ∧ SameInputs s t ∧ SameBytes s t ∧ Emits [.armSend .ep0 0] s t

/-- 42_control_engine.md R100 (decision D20): SET_CONFIGURATION, for every wValue, configures both bulk banks, releases bulk OUT,
acknowledges, and keeps the BOT registers. -/
def Obligations.SetConfigurationConfiguresTheBulkBanks : Prop :=
  ∀ (rt : BitVec 7) (value index : BitVec 16) (s : State),
    ∃ t, exec (.setConfiguration rt value index) s = .next t ∧
      t.bank .ep1In =
        { bufferAddress := Config.bufAddr .ep1InBuf, maxPacketCode := Config.mpsCode 64, byteCount := 0,
          ready := false, configured := true, epType := .bulk, maxPacketSize := 64, stall := false } ∧
      t.bank .ep2Out =
        { bufferAddress := Config.bufAddr .ep2OutBuf, maxPacketCode := Config.mpsCode 64, byteCount := 0,
          ready := true, configured := true, epType := .bulk, maxPacketSize := 64, stall := false } ∧
      t.bank .ep0In = { s.bank .ep0In with byteCount := 0, ready := true } ∧ t.bank .ep0Out = s.bank .ep0Out ∧
      t.ep0State = .noDataStatus ∧ SameControlButState s t ∧ SameBot s t ∧ SameInputs s t ∧ SameBytes s t ∧
      Emits [.configure .ep1In .bulk .ep1InBuf 64, .configure .ep2Out .bulk .ep2OutBuf 64, .release .ep2,
        .armSend .ep0 0] s t

/-- 42_control_engine.md R101 (decisions D21, D26, D27): CLEAR_FEATURE on endpoint 0x81 clears the bulk-IN STALL and acknowledges; in
StallPending it also stages and arms the failed command's CSW, in every other named state nothing more. -/
def Obligations.ClearFeatureRegeneratesTheFailedCsw : Prop :=
  ∀ (rt : BitVec 7) (value : BitVec 16) (s : State),
    (s.botState = .stallPending →
      ∃ t, exec (.clearFeatureEp81 rt value) s = .next t ∧ StoredFrom0 .ep1InBuf (closingCsw s) s t ∧
        t.bank .ep1In = { s.bank .ep1In with stall := false, byteCount := 13, ready := true } ∧
        t.bank .ep0In = { s.bank .ep0In with byteCount := 0, ready := true } ∧
        t.botState = .cswPending ∧ t.csw = ⟨s.cbw.tag, s.remaining, s.csw.status⟩ ∧ t.cbw = s.cbw ∧
        t.remaining = s.remaining ∧ t.ep0State = .noDataStatus ∧ SameBanksBut [.ep1In, .ep0In] s t ∧
        SameControlButState s t ∧ SameInputs s t ∧
        Emits [.clearStall .ep1In, .armSend .ep1 13, .armSend .ep0 0] s t) ∧
    (BotNamed s → s.botState ≠ .stallPending →
      ∃ t, exec (.clearFeatureEp81 rt value) s = .next t ∧ t.bank .ep1In = { s.bank .ep1In with stall := false } ∧
        t.bank .ep0In = { s.bank .ep0In with byteCount := 0, ready := true } ∧ t.ep0State = .noDataStatus ∧
        SameBanksBut [.ep1In, .ep0In] s t ∧ SameControlButState s t ∧ SameBot s t ∧ SameInputs s t ∧ SameBytes s t ∧
        Emits [.clearStall .ep1In, .armSend .ep0 0] s t)

/-- 42_control_engine.md R102 (decision D29, 90_conflicts.md C3): every other host-to-device request without data is acknowledged and
has no other effect, the mass-storage reset included. -/
def Obligations.OtherRequestsAreOnlyAcknowledged : Prop :=
  ∀ (rt : BitVec 7) (request : BitVec 8) (value index : BitVec 16) (s : State),
    ∃ t, exec (.outDefaultAck rt request value index) s = .next t ∧ Ep0Acked s t

/-- 42_control_engine.md R84, 30_encoding.md R60: EP0_SETUP latches the eight bytes, drops a pending address, clears the EP0 STALLs,
releases EP0 OUT (decisions D12, D23), and runs the instruction the packet decodes to. -/
def Obligations.SetupEventRunsTheDecodedRequest : Prop :=
  ∀ s : State, ∃ u : State,
    u.setup = receivedSetup s ∧ u.addrPendingValid = false ∧ u.addrPending = s.addrPending ∧ u.devAddr = s.devAddr ∧
    u.ep0State = s.ep0State ∧ u.bank .ep0Out = { s.bank .ep0Out with stall := false, ready := true } ∧
    u.bank .ep0In = { s.bank .ep0In with stall := false } ∧ SameBanksBut [.ep0Out, .ep0In] s u ∧ SameBot s u ∧
    SameInputs s u ∧ SameBytes s u ∧ Emits [.clearStall .ep0Out, .clearStall .ep0In, .release .ep0] s u ∧
    exec .ep0Setup s = exec (decodeSetup (receivedSetup s)) u

/-- 42_control_engine.md R94: every SETUP event performs exactly one terminal action: it arms EP0 IN once, or acknowledges with one
empty packet, or stalls the control pipe, and nothing between the preamble and that action acts on EP0. -/
def Obligations.SetupTakesExactlyOneTerminalAction : Prop :=
  ∀ s : State, BotNamed s →
    ∃ t mid fin, exec .ep0Setup s = .next t ∧
      Emits ([.clearStall .ep0Out, .clearStall .ep0In, .release .ep0] ++ mid ++ fin) s t ∧
      (∀ op ∈ mid, onEp0 op = false) ∧
      ((t.ep0State = .dataStageIn ∧ ∃ n, n ≤ 32 ∧ fin = [.armSend .ep0 n]) ∨
       (t.ep0State = .noDataStatus ∧ fin = [.armSend .ep0 0]) ∨
       (t.ep0State = .expectSetup ∧ fin = [.stall .ep0Out, .stall .ep0In]))

/-- 42_control_engine.md R86: EP0_TRCPT_IN in DataStageIn ends the transaction and changes nothing else; no packet is added. -/
def Obligations.DataStageCompletionEndsTheTransaction : Prop :=
  ∀ s : State, s.ep0State = .dataStageIn →
    ∃ t, exec .ep0TrcptIn s = .next t ∧ t.ep0State = .expectSetup ∧ SameBanksBut [] s t ∧ SameControlButState s t ∧
      SameBot s t ∧ SameInputs s t ∧ SameBytes s t ∧ Emits [] s t

/-- 42_control_engine.md R87: EP0_TRCPT_IN in NoDataStatus writes a pending address with bit 7 set and drops it, and ends the
transaction. -/
def Obligations.StatusStageWritesThePendingAddress : Prop :=
  ∀ s : State, s.ep0State = .noDataStatus →
    ∃ t, exec .ep0TrcptIn s = .next t ∧ t.ep0State = .expectSetup ∧ t.addrPendingValid = false ∧
      t.addrPending = s.addrPending ∧ t.setup = s.setup ∧
      (s.addrPendingValid = true →
        t.devAddr = 1#1 ++ s.addrPending ∧ Emits [.writeAddress (1#1 ++ s.addrPending)] s t) ∧
      (s.addrPendingValid = false → t.devAddr = s.devAddr ∧ Emits [] s t) ∧
      SameBanksBut [] s t ∧ SameBot s t ∧ SameInputs s t ∧ SameBytes s t

/-- 42_control_engine.md R88 (decision D24) and R89 (decision D23): EP0_TRCPT_IN in the two other states changes nothing; an EP0 OUT packet
is discarded by releasing its bank. -/
def Obligations.OtherControlCompletionsAreAbsorbed : Prop :=
  ∀ s : State,
    (s.ep0State = .expectSetup ∨ s.ep0State = .dataStageOut → exec .ep0TrcptIn s = .next s) ∧
    (∃ t, exec .ep0TrcptOut s = .next t ∧ t.bank .ep0Out = { s.bank .ep0Out with ready := true } ∧
      SameBanksBut [.ep0Out] s t ∧ SameControl s t ∧ SameBot s t ∧ SameInputs s t ∧ SameBytes s t ∧
      Emits [.release .ep0] s t)

/-- 42_control_engine.md R90, R91, 43_bot_engine.md R117, R118 (decision D25): the four STALL-sent events change nothing. -/
def Obligations.StallSentEventsChangeNothing : Prop :=
  ∀ s : State, exec .ep0StallIn s = .next s ∧ exec .ep0StallOut s = .next s ∧ exec .ep1StallIn s = .next s ∧
    exec .ep2StallOut s = .next s

/-- 70_reset_and_hazards.md R148 (decision D10): BUS_RESET configures EP0, releases EP0 OUT and resets every register of both engines;
the bulk banks, the address register and the buffers keep what they hold. -/
def Obligations.BusResetRestoresTheEngines : Prop :=
  ∀ s : State, ∃ t, exec .busReset s = .next t ∧
    t.bank .ep0Out =
      { bufferAddress := Config.bufAddr .ep0OutBuf, maxPacketCode := Config.mpsCode 64, byteCount := 0,
        ready := true, configured := true, epType := .control, maxPacketSize := 64, stall := false } ∧
    t.bank .ep0In =
      { bufferAddress := Config.bufAddr .ep0InBuf, maxPacketCode := Config.mpsCode 64, byteCount := 0,
        ready := false, configured := true, epType := .control, maxPacketSize := 64, stall := false } ∧
    t.ep0State = .expectSetup ∧ t.setup = ⟨0, 0, 0, 0, 0⟩ ∧ t.addrPendingValid = false ∧ t.addrPending = 0 ∧
    t.botState = .expectingCbw ∧ t.cbw = ⟨0, 0, 0, 0, 0, 0, Vector.replicate 16 0⟩ ∧ t.csw = ⟨0, 0, 0⟩ ∧
    t.remaining = 0 ∧ t.devAddr = s.devAddr ∧ SameBanksBut [.ep0Out, .ep0In] s t ∧ SameInputs s t ∧ SameBytes s t ∧
    Emits [.configure .ep0Out .control .ep0OutBuf 64, .configure .ep0In .control .ep0InBuf 64, .release .ep0] s t

-- ## The BOT engine

/-- 43_bot_engine.md R114, R115, R116 (decisions D33, D34): the two bulk completion events run the cell of the BOT state, apply its
outcome to bulk IN, and, for bulk OUT, release the bank afterwards. -/
def Obligations.BulkEventsApplyTheOutcomeOfTheCell : Prop :=
  ∀ (s : State) (i : Instr),
    (cellInstr s.botState .bulkOut = some i →
      ∃ u o t, exec i s = .next u ∧ u.out.outcome = some o ∧ exec .ep2TrcptOut s = .next t ∧
        SameControl u t ∧ SameBot u t ∧ SameInputs u t ∧ SameBytes u t ∧
        t.bank .ep1In = outcomeBank o (s.bank .ep1In) ∧ t.bank .ep2Out = { s.bank .ep2Out with ready := true } ∧
        SameBanksBut [.ep1In, .ep2Out] s t ∧ Emits (outcomeOps o ++ [.release .ep2]) s t) ∧
    (cellInstr s.botState .bulkInComplete = some i →
      ∃ u o t, exec i s = .next u ∧ u.out.outcome = some o ∧ exec .ep1TrcptIn s = .next t ∧
        SameControl u t ∧ SameBot u t ∧ SameInputs u t ∧ SameBytes u t ∧
        t.bank .ep1In = outcomeBank o (s.bank .ep1In) ∧ SameBanksBut [.ep1In] s t ∧ Emits (outcomeOps o) s t)

/-- 43_bot_engine.md R105, 10_state.md R23: `handle` runs the cell of the BOT state and the event, and faults with BadBotState in a
reserved state (decision D37). -/
def Obligations.HandleRunsTheCellOfTheState : Prop :=
  ∀ (ev : BotEvent) (s : State),
    (∀ i, cellInstr s.botState ev = some i → exec i s = recordOutcome (handle ev s)) ∧
    (s.botState = .reserved6 ∨ s.botState = .reserved7 → handle ev s = .fault .badBotState)

/-- 43_bot_engine.md R107 and R106: the data stage went out, so the CSW is staged, echoing the CBW's tag, the residue and the status. -/
def Obligations.DataStageTakenStagesTheCsw : Prop :=
  ∀ s : State, ∃ t, exec .botDataInPendingBulkInComplete s = .next t ∧ CswStaged s t ∧
    t.out.outcome = some (.send 13)

/-- 43_bot_engine.md R109, and R110 (decision D27): the same CSW in the two other cells that build one. -/
def Obligations.OtherCswCellsStageTheCsw : Prop :=
  ∀ s : State,
    (∃ t, exec .botExpectingDataOutBulkOut s = .next t ∧ CswStaged s t ∧ t.out.outcome = some (.send 13)) ∧
    (∃ t, exec .botStallPendingStallCleared s = .next t ∧ CswStaged s t ∧ t.out.outcome = some (.send 13))

/-- 44_scsi_commands.md R121: TEST UNIT READY stages its CSW at once, for every data_transfer_length; on an accepted CBW (status 0,
nothing transferred) the status is 0 and the residue the whole data_transfer_length. -/
def Obligations.TestUnitReadyStagesOnlyTheCsw : Prop :=
  ∀ s : State, ∃ t, exec .scsiTestUnitReady s = .next t ∧ CswStaged s t ∧ t.out.outcome = some (.send 13) ∧
    (s.csw.status = 0 → s.remaining = s.cbw.dataTransferLength →
      t.csw = ⟨s.cbw.tag, s.cbw.dataTransferLength, 0⟩)

/-- 43_bot_engine.md R108: the CSW went out, so the engine expects the next CBW and has nothing to send. -/
def Obligations.CswTakenClosesTheCommand : Prop :=
  ∀ s : State, ∃ t, exec .botCswPendingBulkInComplete s = .next t ∧ t.botState = .expectingCbw ∧
    t.out.outcome = some .noData ∧ t.cbw = s.cbw ∧ t.csw = s.csw ∧ t.remaining = s.remaining ∧ OnlyBotChanges s t

/-- 43_bot_engine.md R111, 60_exceptions.md R137 (decision D28): the six sequence-violation cells enter Error and send nothing. -/
def Obligations.SequenceViolationsEnterError : Prop :=
  ∀ (i : Instr) (s : State),
    i ∈ [Instr.botExpectingCbwBulkInComplete, .botDataInPendingBulkOut, .botExpectingDataOutBulkInComplete,
      .botCswPendingBulkOut, .botStallPendingBulkOut, .botStallPendingBulkInComplete] →
    ∃ t, exec i s = .next t ∧ t.botState = .error ∧ t.out.outcome = some .noData ∧ t.cbw = s.cbw ∧ t.csw = s.csw ∧
      t.remaining = s.remaining ∧ OnlyBotChanges s t

/-- 43_bot_engine.md R112 (decision D26) and R113 (decision D29): a cleared STALL with nothing pending, and every event in Error, change
nothing and send nothing. -/
def Obligations.IdleCellsChangeNothing : Prop :=
  ∀ (i : Instr) (s : State),
    i ∈ [Instr.botExpectingCbwStallCleared, .botDataInPendingStallCleared, .botExpectingDataOutStallCleared,
      .botCswPendingStallCleared, .botErrorBulkOut, .botErrorBulkInComplete, .botErrorStallCleared] →
    ∃ t, exec i s = .next t ∧ t.out.outcome = some .noData ∧ SameBot s t ∧ OnlyBotChanges s t

/-- 44_scsi_commands.md R120, R119, 30_encoding.md R54, R61 (decisions D30, D31): a 31-byte packet with signature 'USBC' is taken as the CBW,
`remaining` and `csw.status` start anew, and the row the packet decodes to is run. -/
def Obligations.ValidCbwIsAcceptedAndRun : Prop :=
  ∀ s : State, (s.bank .ep2Out).byteCount = 31 → (receivedCbw s).signature = 0x43425355 →
    ∃ t, exec .botExpectingCbwBulkOut s = .next t ∧
      exec (decodeCbw .strict 31 (receivedCbw s).signature (s.byteAt .ep2OutBuf 15))
        { s with
          cbw := receivedCbw s, remaining := (receivedCbw s).dataTransferLength, csw := { s.csw with status := 0 } } =
        .next t

/-- 44_scsi_commands.md R119, R120, 60_exceptions.md R138 (decision D30): a packet of another length or signature enters Error, requests a
bulk-IN STALL and leaves cbw, csw and remaining; the row SCSI_INVALID_CBW does the same. -/
def Obligations.MalformedCbwEntersError : Prop :=
  ∀ (outLen signature : BitVec 32) (opcode : BitVec 8) (s : State),
    ((s.bank .ep2Out).byteCount ≠ 31 ∨ (receivedCbw s).signature ≠ 0x43425355 →
      ∃ t, exec .botExpectingCbwBulkOut s = .next t ∧ t.botState = .error ∧ t.out.outcome = some .requestStall ∧
        t.cbw = s.cbw ∧ t.csw = s.csw ∧ t.remaining = s.remaining ∧ OnlyBotChanges s t) ∧
    (∃ t, exec (.scsiInvalidCbw outLen signature opcode) s = .next t ∧ t.botState = .error ∧
      t.out.outcome = some .requestStall ∧ t.cbw = s.cbw ∧ t.csw = s.csw ∧ t.remaining = s.remaining ∧
      OnlyBotChanges s t)

/-- 44_scsi_commands.md R119 (decision D30): under CBW_CHECK = None every packet is taken as a CBW, whatever its length and signature. -/
def Obligations.UncheckedPacketIsTakenAsCbw : Prop :=
  ∀ s : State, ∃ t o, takeCbw .off s = .next (t, o) ∧ t.cbw = receivedCbw s ∧ t.botState ≠ .error ∧
    SameControl s t ∧ SameBanksBut [] s t ∧ SameInputs s t

/-- 44_scsi_commands.md R122: INQUIRY stages the first min(data_transfer_length, 36) bytes of INQUIRY_DATA and takes their
number off `remaining` (at least that many on an accepted CBW). -/
def Obligations.InquiryStagesThePrefix : Prop :=
  ∀ s : State,
    ∃ t, exec .scsiInquiry s = .next t ∧
      DataStaged (inquiryData.take (min s.cbw.dataTransferLength.toNat 36)) s t ∧
      t.out.outcome = some (.send (min s.cbw.dataTransferLength.toNat 36))

/-- 44_scsi_commands.md R123 (decision D32), 00_scope.md R14: READ CAPACITY (10) stages the first min(data_transfer_length, 8) of the
bytes 00 00 07 FF 00 00 02 00. -/
def Obligations.ReadCapacityStagesTheCapacity : Prop :=
  ∀ s : State,
    ∃ t, exec .scsiReadCapacity10 s = .next t ∧
      DataStaged (([0x00, 0x00, 0x07, 0xFF, 0x00, 0x00, 0x02, 0x00] : List Byte).take
        (min s.cbw.dataTransferLength.toNat 8)) s t ∧
      t.out.outcome = some (.send (min s.cbw.dataTransferLength.toNat 8))

/-- 44_scsi_commands.md R124, 60_exceptions.md R136 (decision D27): every other operation code fails the command, requests a bulk-IN
STALL and waits in StallPending. -/
def Obligations.UnsupportedOpcodeFailsTheCommand : Prop :=
  ∀ (opcode : BitVec 8) (s : State),
    ∃ t, exec (.scsiUnsupported opcode) s = .next t ∧ t.botState = .stallPending ∧
      t.csw = ⟨s.csw.tag, s.csw.dataResidue, 1⟩ ∧ t.out.outcome = some .requestStall ∧ t.cbw = s.cbw ∧
      t.remaining = s.remaining ∧ OnlyBotChanges s t

/-- 43_bot_engine.md R104, R114: `handle` emits no bank operation and touches neither the banks nor the control engine; the only
buffer it writes is EP1_IN_BUF, and it never asks for more than 36 bytes. -/
def Obligations.HandleTouchesOnlyTheBotEngine : Prop :=
  ∀ (ev : BotEvent) (s t : State) (o : BotOutcome), handle ev s = .next (t, o) →
    SameControl s t ∧ SameBanksBut [] s t ∧ SameInputs s t ∧ Emits [] s t ∧
    (∀ b i, b ≠ .ep1InBuf → t.byteAt b i = s.byteAt b i) ∧ ∀ n, o = .send n → n ≤ 36

-- ## Host steps

/-- 40_endpoint_bank.md R73 (its USB rules are general knowledge of the spec): a SETUP of 8 bytes is stored whatever ready and stall
are, cancels staged EP0 IN data and raises EP0_SETUP; an unconfigured EP0 gives no handshake and changes nothing. -/
def Obligations.HostSetupIsAlwaysTaken : Prop :=
  ∀ (p : List Byte) (s : State), p.length = 8 →
    ((s.bank .ep0Out).configured = true →
      ∃ t, hostStep (.setup p) s = .next t ∧ t.out.result = some .ack ∧ StoredFrom0 .ep0OutBuf p s t ∧
        t.bank .ep0Out = { s.bank .ep0Out with byteCount := 8, ready := false } ∧
        t.bank .ep0In = { s.bank .ep0In with ready := false } ∧ SameBanksBut [.ep0Out, .ep0In] s t ∧
        t.flags = { s.flags with ep0Setup := true } ∧ t.script = s.script ∧ SameControl s t ∧ SameBot s t) ∧
    ((s.bank .ep0Out).configured = false →
      ∃ t, hostStep (.setup p) s = .next t ∧ t.out.result = some .noHandshake ∧ SameBanksBut [] s t ∧
        SameControl s t ∧ SameBot s t ∧ SameInputs s t ∧ SameBytes s t)

/-- 40_endpoint_bank.md R74: an OUT packet of at most 64 bytes gets NONE, STALL, NAK or ACK by the bank's configured, stall and ready
bits; only ACK stores it, and ACK and STALL raise their events. -/
def Obligations.HostOutFollowsTheBank : Prop :=
  ∀ (k : Nat) (ep : OutEp) (d : List Byte) (s : State), hostOutEp k = some ep → d.length ≤ 64 →
    ∃ t, hostStep (.out k d) s = .next t ∧ SameControl s t ∧ SameBot s t ∧ t.script = s.script ∧
      SameBanksBut [outBank ep] s t ∧
      ((s.bank (outBank ep)).configured = false →
        t.out.result = some .noHandshake ∧ t.bank (outBank ep) = s.bank (outBank ep) ∧ t.flags = s.flags ∧
        SameBytes s t) ∧
      ((s.bank (outBank ep)).configured = true → (s.bank (outBank ep)).stall = true →
        t.out.result = some .stall ∧ t.bank (outBank ep) = s.bank (outBank ep) ∧
        t.flags = s.flags.set (outStall ep) true ∧ SameBytes s t) ∧
      ((s.bank (outBank ep)).configured = true → (s.bank (outBank ep)).stall = false →
        (s.bank (outBank ep)).ready = false →
        t.out.result = some .nak ∧ t.bank (outBank ep) = s.bank (outBank ep) ∧ t.flags = s.flags ∧ SameBytes s t) ∧
      ((s.bank (outBank ep)).configured = true → (s.bank (outBank ep)).stall = false →
        (s.bank (outBank ep)).ready = true →
        t.out.result = some .ack ∧ StoredFrom0 (ownBuffer (outBank ep)) d s t ∧
        t.bank (outBank ep) =
          { s.bank (outBank ep) with byteCount := BitVec.ofNat 32 d.length, ready := false } ∧
        t.flags = s.flags.set (outTrcpt ep) true)

/-- 40_endpoint_bank.md R75: an IN token gets NONE, STALL, NAK or the bank's byte_count bytes, read when the token is answered; a count
above 64, which 10_state.md R29 excludes, is shut out by the premise and no step makes one (StepKeepsTheInvariant). -/
def Obligations.HostInFollowsTheBank : Prop :=
  ∀ (k : Nat) (ep : InEp) (s : State), hostInEp k = some ep → (s.bank (inBank ep)).byteCount.toNat ≤ 64 →
    ∃ t, hostStep (.inn k) s = .next t ∧ SameControl s t ∧ SameBot s t ∧ t.script = s.script ∧ SameBytes s t ∧
      SameBanksBut [inBank ep] s t ∧
      ((s.bank (inBank ep)).configured = false →
        t.out.result = some .noHandshake ∧ t.bank (inBank ep) = s.bank (inBank ep) ∧ t.flags = s.flags) ∧
      ((s.bank (inBank ep)).configured = true → (s.bank (inBank ep)).stall = true →
        t.out.result = some .stall ∧ t.bank (inBank ep) = s.bank (inBank ep) ∧
        t.flags = s.flags.set (inStall ep) true) ∧
      ((s.bank (inBank ep)).configured = true → (s.bank (inBank ep)).stall = false →
        (s.bank (inBank ep)).ready = false →
        t.out.result = some .nak ∧ t.bank (inBank ep) = s.bank (inBank ep) ∧ t.flags = s.flags) ∧
      ((s.bank (inBank ep)).configured = true → (s.bank (inBank ep)).stall = false →
        (s.bank (inBank ep)).ready = true →
        (∃ d, t.out.result = some (.data d) ∧ d.length = (s.bank (inBank ep)).byteCount.toNat ∧
          ∀ i, i < d.length → d[i]? = some (s.byteAt (ownBuffer (inBank ep)) i)) ∧
        t.bank (inBank ep) = { s.bank (inBank ep) with ready := false } ∧
        t.flags = s.flags.set (inTrcpt ep) true)

/-- 40_endpoint_bank.md R76 (decisions D9, D39): a bus reset leaves only BUS_RESET pending, zeroes dev_addr_reg and deconfigures every
bank; both engines' registers and the buffers keep what they hold. That a bank's other fields survive rests on R76 not listing them;
10_state.md R33 leaves those of the bulk banks unspecified (log 14). -/
def Obligations.HostResetVoidsEventsAndBanks : Prop :=
  ∀ s : State, ∃ t, hostStep .reset s = .next t ∧ t.out.result = some .noHandshake ∧
    (∀ e, t.flags.get e = (e == .busReset)) ∧ t.devAddr = 0 ∧
    (∀ b, t.bank b = { s.bank b with configured := false, ready := false, stall := false, byteCount := 0 }) ∧
    t.ep0State = s.ep0State ∧ t.setup = s.setup ∧ t.addrPendingValid = s.addrPendingValid ∧
    t.addrPending = s.addrPending ∧ SameBot s t ∧ t.script = s.script ∧ SameBytes s t

/-- 40_endpoint_bank.md R77 (decision D38): a host step the host is assumed never to take has no move; the model refuses it by name
(log 5). -/
def Obligations.ForbiddenHostStepsHaveNoMove : Prop :=
  ∀ (m : HostMove) (s : State), HostMove.allowed m = false → hostStep m s = .refused .noHostMove

-- ## Encoding

/-- Every well-formed instruction of every format is read back from its raw word, with every operand (30_encoding.md R51, R55 to R57,
R60, R61; the argument layout of OP and CBW_OP words is the model's, log 7 and log 8). -/
def Obligations.DecodeReadsBackEveryEncoding : Prop :=
  ∀ i : Instr, i.wf = true → decode (encode i) = .ok i

/-- The other way: outside the OP format, whose words have fields an operation ignores, a raw word is the encoding of the one
instruction it decodes to, and that instruction is well-formed. -/
def Obligations.EncodeReturnsEveryDecodedWord : Prop :=
  ∀ (raw : Raw) (i : Instr), raw.format ≠ .op → decode raw = .ok i → encode i = raw ∧ i.wf = true

/-- 30_encoding.md R60: the row a SETUP takes is the first row of the opcode table whose mask and match fit its 64-bit word. -/
def Obligations.SetupRowsAreTheTablesRows : Prop :=
  ∀ w : BitVec 64, tableRowOf w = some (setupRow (SetupRequest.ofWord w))

/-- Words written out from the spec (95_test_vectors.md V30; 30_encoding.md R55 to R57, R61) decode to what they stand for, and the
reserved codes of R63 are refused. -/
def Obligations.WrittenOutWordsDecode : Prop :=
  decodeSetup (SetupRequest.ofBytes [0x80, 0x06, 0x05, 0x02, 0x00, 0x00, 0xFF, 0x00]) =
    .getDescriptorConfiguration 0 5 0 255 ∧
  decodeSetup (SetupRequest.ofBytes [0x02, 0x01, 0x00, 0x00, 0x81, 0x00, 0x00, 0x00]) = .clearFeatureEp81 2 0 ∧
  decodeCbw .strict 31 0x43425355 0x12 = .scsiInquiry ∧
  decodeCbw .strict 30 0x43425355 0x00 = .scsiInvalidCbw 30 0x43425355 0x00 ∧
  decode (.event 0x6) = .ok .ep1TrcptIn ∧ decode (.botCell 0x12) = .ok .botStallPendingStallCleared ∧
  decode (.op 6 0 0 0 0 0 0x85) = .ok (.writeAddress 0x85) ∧
  (∀ c : BitVec 4, 0xA ≤ c → decode (.event c) = .error (.reservedEvent c)) ∧
  (∀ v : BitVec 5, v.extractLsb' 0 2 = 3 ∨ 0x18 ≤ v → decode (.botCell v) = .error (.reservedCell v)) ∧
  decode (.op 7 0 0 0 0 0 0) = .error (.reservedOp 7)

-- ## Reset, steps and the whole machine

/-- 10_state.md R33, 70_reset_and_hazards.md R147 (decisions D9, D10, D11): the power-on state, but for the fields the table leaves
unspecified. The last clause is the model's own (log 1, log 2). -/
def Obligations.PowerOnState : Prop :=
  let s := State.reset
  s.ep0State = .expectSetup ∧ s.setup = ⟨0, 0, 0, 0, 0⟩ ∧ s.addrPendingValid = false ∧ s.addrPending = 0 ∧
  s.devAddr = 0x00 ∧ s.botState = .expectingCbw ∧ s.cbw = ⟨0, 0, 0, 0, 0, 0, Vector.replicate 16 0⟩ ∧
  s.csw = ⟨0, 0, 0⟩ ∧ s.remaining = 0 ∧
  s.bank .ep0Out =
    { bufferAddress := Config.bufAddr .ep0OutBuf, maxPacketCode := Config.mpsCode 64, byteCount := 0,
      ready := true, configured := true, epType := .control, maxPacketSize := 64, stall := false } ∧
  s.bank .ep0In =
    { bufferAddress := Config.bufAddr .ep0InBuf, maxPacketCode := Config.mpsCode 64, byteCount := 0,
      ready := false, configured := true, epType := .control, maxPacketSize := 64, stall := false } ∧
  (∀ b, b = .ep1In ∨ b = .ep2Out →
    (s.bank b).configured = false ∧ (s.bank b).ready = false ∧ (s.bank b).stall = false ∧ (s.bank b).byteCount = 0) ∧
  (∀ e, s.flags.get e = false) ∧ s.script = [] ∧ s.out.ops = []

/-- A step runs the decoded instruction (60_exceptions.md R130): where the engine's turn finds an event, the event's code decodes to
its row, the flag is cleared, the output list starts empty, and exec of that row is the step. A host line is its host step; and
where nothing is enabled the state keeps everything but the script line used up (log 2, log 4). -/
def Obligations.StepRunsTheNextMove : Prop :=
  ∀ s : State,
    (∀ e, s.flags.next = some e → ∀ rest, s.script = .engine :: rest →
      decode (.event e.code) = .ok e.instr ∧
      step s = exec e.instr { s with script := rest, flags := s.flags.set e false, out := ⟨[], none, none, none⟩ }) ∧
    (∀ e, s.flags.next = some e → (s.script = [] ∨ ∃ rest, s.script = .engineStar :: rest) →
      step s = exec e.instr { s with flags := s.flags.set e false, out := ⟨[], none, none, none⟩ }) ∧
    (∀ m rest, s.script = .host m :: rest → step s = hostStep m { s with script := rest }) ∧
    (s.flags.next = none → (∀ m rest, s.script ≠ .host m :: rest) → step s = .next { s with script := s.script.tail })

/-- 60_exceptions.md R129 (decision D8): the event taken is the pending one with the lowest code. -/
def Obligations.LowestPendingCodeIsTaken : Prop :=
  ∀ (f : Flags),
    (∀ e, f.next = some e ↔ f.get e = true ∧ ∀ x, f.get x = true → e.code ≤ x.code) ∧
    (f.next = none ↔ ∀ x, f.get x = false)

/-- The power-on state meets the invariant. -/
def Obligations.ResetMeetsTheInvariant : Prop := Inv State.reset

/-- Every step, host step or event, keeps the invariant, from every state that meets it: canonical buffers, legal BOT and control
states, status 0 or 1, remaining within the CBW's length, byte counts within 64, a bank's address one of the four buffers', the
address register 0 or enabled, the CSW's tag (00_scope.md R16; 10_state.md R23, R25 to R27, R29; 42_control_engine.md R88; 43_bot_engine.md R111, R118). -/
def Obligations.StepKeepsTheInvariant : Prop :=
  ∀ s t : State, Inv s → step s = .next t → Inv t

/-- 60_exceptions.md R139: from a state that meets the invariant, with only lines the host may write, no step faults or is refused. -/
def Obligations.NoStepStopsUnderTheInvariant : Prop :=
  ∀ s : State, Inv s → ScriptAllowed s → ∃ t, step s = .next t ∧ ScriptAllowed t

/-- 60_exceptions.md R133: the engine raises no event itself: no instruction changes a pending flag or the host's script. -/
def Obligations.NoInstructionRaisesAnEvent : Prop :=
  ∀ (i : Instr) (s t : State), exec i s = .next t → SameInputs s t

/-- 20_memory.md R47, 70_reset_and_hazards.md R150: in a step the address register changes only when the STATUS stage of a SET_ADDRESS has
completed, to the pending address with bit 7 set, or at a bus reset, to 0. -/
def Obligations.AddressChangesOnlyAfterStatus : Prop :=
  ∀ s t : State, step s = .next t → t.devAddr ≠ s.devAddr →
    ((∃ u, nextMove s = (.event .ep0TrcptIn, u)) ∧ s.ep0State = .noDataStatus ∧ s.addrPendingValid = true ∧
      t.devAddr = 1#1 ++ s.addrPending) ∨
    ((∃ u, nextMove s = (.host .reset, u)) ∧ t.devAddr = 0)

/-- 43_bot_engine.md R113, 70_reset_and_hazards.md R148 (decision D29): the BOT Error state is left only by taking a bus reset. -/
def Obligations.ErrorIsLeftOnlyByBusReset : Prop :=
  ∀ s t : State, s.botState = .error → step s = .next t →
    t.botState = .error ∨ ((∃ u, nextMove s = (.event .busReset, u)) ∧ t.botState = .expectingCbw)

/-- 42_control_engine.md R88, 43_bot_engine.md R111, R118 (inferences of the spec): under the invariant an EP0 IN completion is taken
only in a stage of a transaction, a bulk-IN completion never in a state where it is a sequence violation (Error is
none: a packet armed before it was entered may still be taken there), and a bulk-OUT
STALL-sent event never. -/
def Obligations.StrayCompletionsAreNeverTaken : Prop :=
  ∀ (s u : State), Inv s →
    (nextMove s = (.event .ep0TrcptIn, u) → s.ep0State = .dataStageIn ∨ s.ep0State = .noDataStatus) ∧
    (nextMove s = (.event .ep1TrcptIn, u) →
      s.botState = .dataInPending ∨ s.botState = .cswPending ∨ s.botState = .error) ∧
    nextMove s ≠ (.event .ep2StallOut, u)

/-- 00_scope.md R16 (decision D6), 20_memory.md R34: the four buffers' 64-byte regions do not overlap; under the invariant every bank's
address is one of the four, and two configured banks never share a byte of a buffer. -/
def Obligations.BuffersNeverOverlap : Prop :=
  (∀ p q : PacketBuf, p ≠ q →
    Config.bufAddr p + 64 ≤ Config.bufAddr q ∨ Config.bufAddr q + 64 ≤ Config.bufAddr p) ∧
  ∀ s : State, Inv s →
    (∀ b, ∃ p, (s.bank b).bufferAddress = Config.bufAddr p) ∧
    ∀ a b : Bank, a ≠ b → (s.bank a).configured = true → (s.bank b).configured = true →
      (s.bank a).bufferAddress + 64 ≤ (s.bank b).bufferAddress ∨
      (s.bank b).bufferAddress + 64 ≤ (s.bank a).bufferAddress
end

