-- ==== Sys2Proof/Laws/Decode.lean ====
section
/-! SUPPORT. The fields of the raw words: what a field of an appended word is, that the SETUP word and its five fields determine each
other, and the codes of the operation arguments. -/

namespace Sys2Proof

/-- The low part of an appended word. -/
theorem extract_low {a b : Nat} (x : BitVec a) (y : BitVec b) : BitVec.extractLsb' 0 b (x ++ y) = y := by
  rw [BitVec.extractLsb'_append_eq_of_add_le (by omega), BitVec.extractLsb'_eq_self]

/-- The high part of an appended word. -/
theorem extract_high {a b : Nat} (x : BitVec a) (y : BitVec b) : BitVec.extractLsb' b a (x ++ y) = x := by
  rw [BitVec.extractLsb'_append_eq_of_le (by omega), Nat.sub_self, BitVec.extractLsb'_eq_self]

/-- Appended words agree exactly when their parts do. -/
theorem append_inj {a b : Nat} {x x' : BitVec a} {y y' : BitVec b} : x ++ y = x' ++ y' ↔ x = x' ∧ y = y' := by
  constructor
  · intro h
    exact ⟨by rw [← extract_high x y, h, extract_high], by rw [← extract_low x y, h, extract_low]⟩
  · rintro ⟨rfl, rfl⟩; rfl

/-- The fields of a SETUP word made of five fields (30_encoding.md R51). -/
theorem ofWord_word (r : SetupRequest) : SetupRequest.ofWord r.word = r := by
  obtain ⟨a, b, c, d, e⟩ := r
  have h1 (st : Nat) (n : Nat) (h : 8 ≤ st) :=
    BitVec.extractLsb'_append_eq_of_le (len := n) (xhi := e ++ d ++ c ++ b) (xlo := a) h
  have h2 (st : Nat) (n : Nat) (h : 8 ≤ st) :=
    BitVec.extractLsb'_append_eq_of_le (len := n) (xhi := e ++ d ++ c) (xlo := b) h
  have h3 (st : Nat) (n : Nat) (h : 16 ≤ st) := BitVec.extractLsb'_append_eq_of_le (len := n) (xhi := e ++ d) (xlo := c) h
  simp only [SetupRequest.ofWord, SetupRequest.word, SetupRequest.mk.injEq]
  refine ⟨extract_low _ a, (h1 8 8 (by omega)).trans (extract_low _ b), (h1 16 16 (by omega)).trans ?_,
    (h1 32 16 (by omega)).trans ?_, (h1 48 16 (by omega)).trans ?_⟩
  · exact (h2 8 16 (by omega)).trans (extract_low _ c)
  · exact (h2 24 16 (by omega)).trans ((h3 16 16 (by omega)).trans (extract_low _ d))
  · exact (h2 40 16 (by omega)).trans ((h3 32 16 (by omega)).trans (extract_high e d))

/-- The SETUP word of the five fields of a word (30_encoding.md R51). -/
theorem word_ofWord (w : BitVec 64) : (SetupRequest.ofWord w).word = w := by
  simp only [SetupRequest.ofWord, SetupRequest.word]
  rw [BitVec.extractLsb'_append_extractLsb'_eq_extractLsb' (by omega),
    BitVec.extractLsb'_append_extractLsb'_eq_extractLsb' (by omega),
    BitVec.extractLsb'_append_extractLsb'_eq_extractLsb' (by omega),
    BitVec.extractLsb'_append_extractLsb'_eq_extractLsb' (by omega)]
  exact BitVec.extractLsb'_eq_self

/-- Two SETUP words agree exactly when their fields do. -/
theorem word_inj {r m : SetupRequest} : r.word = m.word ↔ r = m :=
  ⟨fun h => by rw [← ofWord_word r, h, ofWord_word], fun h => h ▸ rfl⟩

/-- Masking a SETUP word masks its fields. -/
theorem word_and (r m : SetupRequest) :
    r.word &&& m.word = SetupRequest.word ⟨r.requestType &&& m.requestType, r.request &&& m.request, r.value &&& m.value,
      r.index &&& m.index, r.length &&& m.length⟩ := by
  simp only [SetupRequest.word]
  rw [BitVec.and_append, BitVec.and_append, BitVec.and_append, BitVec.and_append]

@[simp] theorem typeBits_append (b : BitVec 1) (rt : BitVec 7) (rq : BitVec 8) (v ix l : BitVec 16) :
    SetupRequest.typeBits ⟨b ++ rt, rq, v, ix, l⟩ = rt := extract_low b rt

@[simp] theorem isIn_one (rt : BitVec 7) (rq : BitVec 8) (v ix l : BitVec 16) :
    SetupRequest.isIn ⟨1#1 ++ rt, rq, v, ix, l⟩ = true := by
  simp only [SetupRequest.isIn]; revert rt; decide

@[simp] theorem isIn_zero (rt : BitVec 7) (rq : BitVec 8) (v ix l : BitVec 16) :
    SetupRequest.isIn ⟨0#1 ++ rt, rq, v, ix, l⟩ = false := by
  simp only [SetupRequest.isIn]; revert rt; decide

theorem descType_append (t i : BitVec 8) : descTypeOf (t ++ i) = t := extract_high t i
theorem descIndex_append (t i : BitVec 8) : descIndexOf (t ++ i) = i := extract_low t i

/-- A value is its descriptor type over its descriptor index (30_encoding.md R53). -/
theorem value_split (v : BitVec 16) : descTypeOf v ++ descIndexOf v = v := by
  have := BitVec.extractLsb'_append_extractLsb'_eq_extractLsb' (x := v) (start₂ := 8) (start₁ := 0) (len₁ := 8) (len₂ := 8) rfl
  exact this.trans BitVec.extractLsb'_eq_self

@[simp] theorem bufOfCode_code (b : PacketBuf) : bufOfCode b.code = b := by cases b <;> rfl
@[simp] theorem epTypeOfCode_code (t : EpType) : epTypeOfCode t.code = some t := by cases t <;> rfl
@[simp] theorem dirOfCode_code (d : Dir) : dirOfCode d.code = d := by cases d <;> rfl
@[simp] theorem eventOfCode_code (e : Event) : eventOfCode e.code = some e := by cases e <;> rfl

end Sys2Proof
end

