-- ==== Sys2Proof/Laws/State.lean ====
section
/-! SUPPORT. A lemma per field of State for each named update, so that no proof unfolds a record update; and the read-after-write
lemmas of the bank table, the flags and the buffers. -/

namespace Sys2Proof.Machine

-- ## setBank

@[simp] theorem setBank_ep0State (s : State) (b : Bank) (d : BankDesc) : (s.setBank b d).ep0State = s.ep0State := rfl
@[simp] theorem setBank_setup (s : State) (b : Bank) (d : BankDesc) : (s.setBank b d).setup = s.setup := rfl
@[simp] theorem setBank_addrPendingValid (s : State) (b : Bank) (d : BankDesc) : (s.setBank b d).addrPendingValid = s.addrPendingValid := rfl
@[simp] theorem setBank_addrPending (s : State) (b : Bank) (d : BankDesc) : (s.setBank b d).addrPending = s.addrPending := rfl
@[simp] theorem setBank_devAddr (s : State) (b : Bank) (d : BankDesc) : (s.setBank b d).devAddr = s.devAddr := rfl
@[simp] theorem setBank_botState (s : State) (b : Bank) (d : BankDesc) : (s.setBank b d).botState = s.botState := rfl
@[simp] theorem setBank_cbw (s : State) (b : Bank) (d : BankDesc) : (s.setBank b d).cbw = s.cbw := rfl
@[simp] theorem setBank_csw (s : State) (b : Bank) (d : BankDesc) : (s.setBank b d).csw = s.csw := rfl
@[simp] theorem setBank_remaining (s : State) (b : Bank) (d : BankDesc) : (s.setBank b d).remaining = s.remaining := rfl
@[simp] theorem setBank_banks (s : State) (b : Bank) (d : BankDesc) : (s.setBank b d).banks = s.banks.set b d := rfl
@[simp] theorem setBank_flags (s : State) (b : Bank) (d : BankDesc) : (s.setBank b d).flags = s.flags := rfl
@[simp] theorem setBank_bufs (s : State) (b : Bank) (d : BankDesc) : (s.setBank b d).bufs = s.bufs := rfl
@[simp] theorem setBank_out (s : State) (b : Bank) (d : BankDesc) : (s.setBank b d).out = s.out := rfl
@[simp] theorem setBank_script (s : State) (b : Bank) (d : BankDesc) : (s.setBank b d).script = s.script := rfl

-- ## setFlag

@[simp] theorem setFlag_ep0State (s : State) (e : Event) (v : Bool) : (s.setFlag e v).ep0State = s.ep0State := rfl
@[simp] theorem setFlag_setup (s : State) (e : Event) (v : Bool) : (s.setFlag e v).setup = s.setup := rfl
@[simp] theorem setFlag_addrPendingValid (s : State) (e : Event) (v : Bool) : (s.setFlag e v).addrPendingValid = s.addrPendingValid := rfl
@[simp] theorem setFlag_addrPending (s : State) (e : Event) (v : Bool) : (s.setFlag e v).addrPending = s.addrPending := rfl
@[simp] theorem setFlag_devAddr (s : State) (e : Event) (v : Bool) : (s.setFlag e v).devAddr = s.devAddr := rfl
@[simp] theorem setFlag_botState (s : State) (e : Event) (v : Bool) : (s.setFlag e v).botState = s.botState := rfl
@[simp] theorem setFlag_cbw (s : State) (e : Event) (v : Bool) : (s.setFlag e v).cbw = s.cbw := rfl
@[simp] theorem setFlag_csw (s : State) (e : Event) (v : Bool) : (s.setFlag e v).csw = s.csw := rfl
@[simp] theorem setFlag_remaining (s : State) (e : Event) (v : Bool) : (s.setFlag e v).remaining = s.remaining := rfl
@[simp] theorem setFlag_banks (s : State) (e : Event) (v : Bool) : (s.setFlag e v).banks = s.banks := rfl
@[simp] theorem setFlag_flags (s : State) (e : Event) (v : Bool) : (s.setFlag e v).flags = s.flags.set e v := rfl
@[simp] theorem setFlag_bufs (s : State) (e : Event) (v : Bool) : (s.setFlag e v).bufs = s.bufs := rfl
@[simp] theorem setFlag_out (s : State) (e : Event) (v : Bool) : (s.setFlag e v).out = s.out := rfl
@[simp] theorem setFlag_script (s : State) (e : Event) (v : Bool) : (s.setFlag e v).script = s.script := rfl

-- ## writeBytes

@[simp] theorem writeBytes_ep0State (s : State) (b : PacketBuf) (off : Nat) (v : List Byte) : (s.writeBytes b off v).ep0State = s.ep0State := rfl
@[simp] theorem writeBytes_setup (s : State) (b : PacketBuf) (off : Nat) (v : List Byte) : (s.writeBytes b off v).setup = s.setup := rfl
@[simp] theorem writeBytes_addrPendingValid (s : State) (b : PacketBuf) (off : Nat) (v : List Byte) : (s.writeBytes b off v).addrPendingValid = s.addrPendingValid := rfl
@[simp] theorem writeBytes_addrPending (s : State) (b : PacketBuf) (off : Nat) (v : List Byte) : (s.writeBytes b off v).addrPending = s.addrPending := rfl
@[simp] theorem writeBytes_devAddr (s : State) (b : PacketBuf) (off : Nat) (v : List Byte) : (s.writeBytes b off v).devAddr = s.devAddr := rfl
@[simp] theorem writeBytes_botState (s : State) (b : PacketBuf) (off : Nat) (v : List Byte) : (s.writeBytes b off v).botState = s.botState := rfl
@[simp] theorem writeBytes_cbw (s : State) (b : PacketBuf) (off : Nat) (v : List Byte) : (s.writeBytes b off v).cbw = s.cbw := rfl
@[simp] theorem writeBytes_csw (s : State) (b : PacketBuf) (off : Nat) (v : List Byte) : (s.writeBytes b off v).csw = s.csw := rfl
@[simp] theorem writeBytes_remaining (s : State) (b : PacketBuf) (off : Nat) (v : List Byte) : (s.writeBytes b off v).remaining = s.remaining := rfl
@[simp] theorem writeBytes_banks (s : State) (b : PacketBuf) (off : Nat) (v : List Byte) : (s.writeBytes b off v).banks = s.banks := rfl
@[simp] theorem writeBytes_flags (s : State) (b : PacketBuf) (off : Nat) (v : List Byte) : (s.writeBytes b off v).flags = s.flags := rfl
@[simp] theorem writeBytes_bufs (s : State) (b : PacketBuf) (off : Nat) (v : List Byte) : (s.writeBytes b off v).bufs = s.bufs.set b (Memory.write (s.bufs.get b) off v) := rfl
@[simp] theorem writeBytes_out (s : State) (b : PacketBuf) (off : Nat) (v : List Byte) : (s.writeBytes b off v).out = s.out := rfl
@[simp] theorem writeBytes_script (s : State) (b : PacketBuf) (off : Nat) (v : List Byte) : (s.writeBytes b off v).script = s.script := rfl

-- ## pushOp

@[simp] theorem pushOp_ep0State (s : State) (op : BankOp) : (s.pushOp op).ep0State = s.ep0State := rfl
@[simp] theorem pushOp_setup (s : State) (op : BankOp) : (s.pushOp op).setup = s.setup := rfl
@[simp] theorem pushOp_addrPendingValid (s : State) (op : BankOp) : (s.pushOp op).addrPendingValid = s.addrPendingValid := rfl
@[simp] theorem pushOp_addrPending (s : State) (op : BankOp) : (s.pushOp op).addrPending = s.addrPending := rfl
@[simp] theorem pushOp_devAddr (s : State) (op : BankOp) : (s.pushOp op).devAddr = s.devAddr := rfl
@[simp] theorem pushOp_botState (s : State) (op : BankOp) : (s.pushOp op).botState = s.botState := rfl
@[simp] theorem pushOp_cbw (s : State) (op : BankOp) : (s.pushOp op).cbw = s.cbw := rfl
@[simp] theorem pushOp_csw (s : State) (op : BankOp) : (s.pushOp op).csw = s.csw := rfl
@[simp] theorem pushOp_remaining (s : State) (op : BankOp) : (s.pushOp op).remaining = s.remaining := rfl
@[simp] theorem pushOp_banks (s : State) (op : BankOp) : (s.pushOp op).banks = s.banks := rfl
@[simp] theorem pushOp_flags (s : State) (op : BankOp) : (s.pushOp op).flags = s.flags := rfl
@[simp] theorem pushOp_bufs (s : State) (op : BankOp) : (s.pushOp op).bufs = s.bufs := rfl
@[simp] theorem pushOp_out (s : State) (op : BankOp) : (s.pushOp op).out = { s.out with ops := s.out.ops ++ [op] } := rfl
@[simp] theorem pushOp_script (s : State) (op : BankOp) : (s.pushOp op).script = s.script := rfl

-- ## takeEvent

@[simp] theorem takeEvent_ep0State (s : State) (e : Event) : (takeEvent e s).ep0State = s.ep0State := rfl
@[simp] theorem takeEvent_setup (s : State) (e : Event) : (takeEvent e s).setup = s.setup := rfl
@[simp] theorem takeEvent_addrPendingValid (s : State) (e : Event) : (takeEvent e s).addrPendingValid = s.addrPendingValid := rfl
@[simp] theorem takeEvent_addrPending (s : State) (e : Event) : (takeEvent e s).addrPending = s.addrPending := rfl
@[simp] theorem takeEvent_devAddr (s : State) (e : Event) : (takeEvent e s).devAddr = s.devAddr := rfl
@[simp] theorem takeEvent_botState (s : State) (e : Event) : (takeEvent e s).botState = s.botState := rfl
@[simp] theorem takeEvent_cbw (s : State) (e : Event) : (takeEvent e s).cbw = s.cbw := rfl
@[simp] theorem takeEvent_csw (s : State) (e : Event) : (takeEvent e s).csw = s.csw := rfl
@[simp] theorem takeEvent_remaining (s : State) (e : Event) : (takeEvent e s).remaining = s.remaining := rfl
@[simp] theorem takeEvent_banks (s : State) (e : Event) : (takeEvent e s).banks = s.banks := rfl
@[simp] theorem takeEvent_flags (s : State) (e : Event) : (takeEvent e s).flags = s.flags.set e false := rfl
@[simp] theorem takeEvent_bufs (s : State) (e : Event) : (takeEvent e s).bufs = s.bufs := rfl
@[simp] theorem takeEvent_out (s : State) (e : Event) : (takeEvent e s).out = Output.empty := rfl
@[simp] theorem takeEvent_script (s : State) (e : Event) : (takeEvent e s).script = s.script := rfl

-- ## withResult

@[simp] theorem withResult_ep0State (s : State) (r : HostResult) : (withResult r s).ep0State = s.ep0State := rfl
@[simp] theorem withResult_setup (s : State) (r : HostResult) : (withResult r s).setup = s.setup := rfl
@[simp] theorem withResult_addrPendingValid (s : State) (r : HostResult) : (withResult r s).addrPendingValid = s.addrPendingValid := rfl
@[simp] theorem withResult_addrPending (s : State) (r : HostResult) : (withResult r s).addrPending = s.addrPending := rfl
@[simp] theorem withResult_devAddr (s : State) (r : HostResult) : (withResult r s).devAddr = s.devAddr := rfl
@[simp] theorem withResult_botState (s : State) (r : HostResult) : (withResult r s).botState = s.botState := rfl
@[simp] theorem withResult_cbw (s : State) (r : HostResult) : (withResult r s).cbw = s.cbw := rfl
@[simp] theorem withResult_csw (s : State) (r : HostResult) : (withResult r s).csw = s.csw := rfl
@[simp] theorem withResult_remaining (s : State) (r : HostResult) : (withResult r s).remaining = s.remaining := rfl
@[simp] theorem withResult_banks (s : State) (r : HostResult) : (withResult r s).banks = s.banks := rfl
@[simp] theorem withResult_flags (s : State) (r : HostResult) : (withResult r s).flags = s.flags := rfl
@[simp] theorem withResult_bufs (s : State) (r : HostResult) : (withResult r s).bufs = s.bufs := rfl
@[simp] theorem withResult_out (s : State) (r : HostResult) : (withResult r s).out = { Output.empty with result := some r } := rfl
@[simp] theorem withResult_script (s : State) (r : HostResult) : (withResult r s).script = s.script := rfl

-- ## setStall

@[simp] theorem setStall_ep0State (s : State) (b : Bank) (v : Bool) : (setStall b v s).ep0State = s.ep0State := rfl
@[simp] theorem setStall_setup (s : State) (b : Bank) (v : Bool) : (setStall b v s).setup = s.setup := rfl
@[simp] theorem setStall_addrPendingValid (s : State) (b : Bank) (v : Bool) : (setStall b v s).addrPendingValid = s.addrPendingValid := rfl
@[simp] theorem setStall_addrPending (s : State) (b : Bank) (v : Bool) : (setStall b v s).addrPending = s.addrPending := rfl
@[simp] theorem setStall_devAddr (s : State) (b : Bank) (v : Bool) : (setStall b v s).devAddr = s.devAddr := rfl
@[simp] theorem setStall_botState (s : State) (b : Bank) (v : Bool) : (setStall b v s).botState = s.botState := rfl
@[simp] theorem setStall_cbw (s : State) (b : Bank) (v : Bool) : (setStall b v s).cbw = s.cbw := rfl
@[simp] theorem setStall_csw (s : State) (b : Bank) (v : Bool) : (setStall b v s).csw = s.csw := rfl
@[simp] theorem setStall_remaining (s : State) (b : Bank) (v : Bool) : (setStall b v s).remaining = s.remaining := rfl
@[simp] theorem setStall_banks (s : State) (b : Bank) (v : Bool) : (setStall b v s).banks = s.banks.set b { s.bank b with stall := v } := rfl
@[simp] theorem setStall_flags (s : State) (b : Bank) (v : Bool) : (setStall b v s).flags = s.flags := rfl
@[simp] theorem setStall_bufs (s : State) (b : Bank) (v : Bool) : (setStall b v s).bufs = s.bufs := rfl
@[simp] theorem setStall_out (s : State) (b : Bank) (v : Bool) : (setStall b v s).out = s.out := rfl
@[simp] theorem setStall_script (s : State) (b : Bank) (v : Bool) : (setStall b v s).script = s.script := rfl

-- ## releaseBank

@[simp] theorem releaseBank_ep0State (s : State) (ep : OutEp) : (releaseBank ep s).ep0State = s.ep0State := rfl
@[simp] theorem releaseBank_setup (s : State) (ep : OutEp) : (releaseBank ep s).setup = s.setup := rfl
@[simp] theorem releaseBank_addrPendingValid (s : State) (ep : OutEp) : (releaseBank ep s).addrPendingValid = s.addrPendingValid := rfl
@[simp] theorem releaseBank_addrPending (s : State) (ep : OutEp) : (releaseBank ep s).addrPending = s.addrPending := rfl
@[simp] theorem releaseBank_devAddr (s : State) (ep : OutEp) : (releaseBank ep s).devAddr = s.devAddr := rfl
@[simp] theorem releaseBank_botState (s : State) (ep : OutEp) : (releaseBank ep s).botState = s.botState := rfl
@[simp] theorem releaseBank_cbw (s : State) (ep : OutEp) : (releaseBank ep s).cbw = s.cbw := rfl
@[simp] theorem releaseBank_csw (s : State) (ep : OutEp) : (releaseBank ep s).csw = s.csw := rfl
@[simp] theorem releaseBank_remaining (s : State) (ep : OutEp) : (releaseBank ep s).remaining = s.remaining := rfl
@[simp] theorem releaseBank_banks (s : State) (ep : OutEp) : (releaseBank ep s).banks = s.banks.set (outBank ep) { s.bank (outBank ep) with ready := true } := rfl
@[simp] theorem releaseBank_flags (s : State) (ep : OutEp) : (releaseBank ep s).flags = s.flags := rfl
@[simp] theorem releaseBank_bufs (s : State) (ep : OutEp) : (releaseBank ep s).bufs = s.bufs := rfl
@[simp] theorem releaseBank_out (s : State) (ep : OutEp) : (releaseBank ep s).out = s.out := rfl
@[simp] theorem releaseBank_script (s : State) (ep : OutEp) : (releaseBank ep s).script = s.script := rfl

-- ## latchSetup

@[simp] theorem latchSetup_ep0State (s : State) (r : SetupRequest) : (latchSetup r s).ep0State = s.ep0State := rfl
@[simp] theorem latchSetup_setup (s : State) (r : SetupRequest) : (latchSetup r s).setup = r := rfl
@[simp] theorem latchSetup_addrPendingValid (s : State) (r : SetupRequest) : (latchSetup r s).addrPendingValid = false := rfl
@[simp] theorem latchSetup_addrPending (s : State) (r : SetupRequest) : (latchSetup r s).addrPending = s.addrPending := rfl
@[simp] theorem latchSetup_devAddr (s : State) (r : SetupRequest) : (latchSetup r s).devAddr = s.devAddr := rfl
@[simp] theorem latchSetup_botState (s : State) (r : SetupRequest) : (latchSetup r s).botState = s.botState := rfl
@[simp] theorem latchSetup_cbw (s : State) (r : SetupRequest) : (latchSetup r s).cbw = s.cbw := rfl
@[simp] theorem latchSetup_csw (s : State) (r : SetupRequest) : (latchSetup r s).csw = s.csw := rfl
@[simp] theorem latchSetup_remaining (s : State) (r : SetupRequest) : (latchSetup r s).remaining = s.remaining := rfl
@[simp] theorem latchSetup_banks (s : State) (r : SetupRequest) : (latchSetup r s).banks = s.banks := rfl
@[simp] theorem latchSetup_flags (s : State) (r : SetupRequest) : (latchSetup r s).flags = s.flags := rfl
@[simp] theorem latchSetup_bufs (s : State) (r : SetupRequest) : (latchSetup r s).bufs = s.bufs := rfl
@[simp] theorem latchSetup_out (s : State) (r : SetupRequest) : (latchSetup r s).out = s.out := rfl
@[simp] theorem latchSetup_script (s : State) (r : SetupRequest) : (latchSetup r s).script = s.script := rfl

-- ## eventNext

@[simp] theorem eventNext_ep0State (s : State) (e : Event) : (s.eventNext e).ep0State = s.ep0State := rfl
@[simp] theorem eventNext_setup (s : State) (e : Event) : (s.eventNext e).setup = s.setup := rfl
@[simp] theorem eventNext_addrPendingValid (s : State) (e : Event) : (s.eventNext e).addrPendingValid = s.addrPendingValid := rfl
@[simp] theorem eventNext_addrPending (s : State) (e : Event) : (s.eventNext e).addrPending = s.addrPending := rfl
@[simp] theorem eventNext_devAddr (s : State) (e : Event) : (s.eventNext e).devAddr = s.devAddr := rfl
@[simp] theorem eventNext_botState (s : State) (e : Event) : (s.eventNext e).botState = s.botState := rfl
@[simp] theorem eventNext_cbw (s : State) (e : Event) : (s.eventNext e).cbw = s.cbw := rfl
@[simp] theorem eventNext_csw (s : State) (e : Event) : (s.eventNext e).csw = s.csw := rfl
@[simp] theorem eventNext_remaining (s : State) (e : Event) : (s.eventNext e).remaining = s.remaining := rfl
@[simp] theorem eventNext_banks (s : State) (e : Event) : (s.eventNext e).banks = s.banks := rfl
@[simp] theorem eventNext_flags (s : State) (e : Event) : (s.eventNext e).flags = s.flags.raiseFirst e := rfl
@[simp] theorem eventNext_bufs (s : State) (e : Event) : (s.eventNext e).bufs = s.bufs := rfl
@[simp] theorem eventNext_out (s : State) (e : Event) : (s.eventNext e).out = s.out := rfl
@[simp] theorem eventNext_script (s : State) (e : Event) : (s.eventNext e).script = .engine :: s.script := rfl

-- ## Banks

@[simp] theorem banks_get_set_self (t : Banks) (b : Bank) (d : BankDesc) : (t.set b d).get b = d := by
  cases b <;> rfl

@[simp] theorem banks_get_set_other (t : Banks) (b c : Bank) (d : BankDesc) (h : c ≠ b) : (t.set b d).get c = t.get c := by
  cases b <;> cases c <;> first | rfl | exact absurd rfl h

theorem banks_get_set (t : Banks) (b c : Bank) (d : BankDesc) : (t.set b d).get c = if c = b then d else t.get c := by
  cases b <;> cases c <;> rfl

@[simp] theorem setBank_bank_self (s : State) (b : Bank) (d : BankDesc) : (s.setBank b d).bank b = d :=
  banks_get_set_self _ _ _

@[simp] theorem setBank_bank_other (s : State) (b c : Bank) (d : BankDesc) (h : c ≠ b) :
    (s.setBank b d).bank c = s.bank c := banks_get_set_other _ _ _ _ h

theorem setBank_bank (s : State) (b c : Bank) (d : BankDesc) :
    (s.setBank b d).bank c = if c = b then d else s.bank c := banks_get_set _ _ _ _

theorem bank_congr {s t : State} (h : t.banks = s.banks) (b : Bank) : t.bank b = s.bank b := by
  simp [State.bank, h]

@[simp] theorem pushOp_bank (s : State) (op : BankOp) (b : Bank) : (s.pushOp op).bank b = s.bank b := rfl
@[simp] theorem takeEvent_bank (s : State) (e : Event) (b : Bank) : (takeEvent e s).bank b = s.bank b := rfl
@[simp] theorem setFlag_bank (s : State) (e : Event) (v : Bool) (b : Bank) : (s.setFlag e v).bank b = s.bank b := rfl
@[simp] theorem withResult_bank (s : State) (r : HostResult) (b : Bank) : (withResult r s).bank b = s.bank b := rfl
@[simp] theorem latchSetup_bank (s : State) (r : SetupRequest) (b : Bank) : (latchSetup r s).bank b = s.bank b := rfl
@[simp] theorem writeBytes_bank (s : State) (p : PacketBuf) (off : Nat) (v : List Byte) (b : Bank) :
    (s.writeBytes p off v).bank b = s.bank b := rfl

@[simp] theorem setStall_bank (s : State) (b c : Bank) (v : Bool) :
    (setStall b v s).bank c = if c = b then { s.bank b with stall := v } else s.bank c := setBank_bank _ _ _ _

@[simp] theorem releaseBank_bank (s : State) (ep : OutEp) (c : Bank) :
    (releaseBank ep s).bank c = if c = outBank ep then { s.bank (outBank ep) with ready := true } else s.bank c :=
  setBank_bank _ _ _ _

-- ## Flags

@[simp] theorem flags_get_set_self (f : Flags) (e : Event) (v : Bool) : (f.set e v).get e = v := by
  cases e <;> rfl

@[simp] theorem flags_get_set_other (f : Flags) (e x : Event) (v : Bool) (h : x ≠ e) : (f.set e v).get x = f.get x := by
  cases e <;> cases x <;> first | rfl | exact absurd rfl h

-- ## Buffers

@[simp] theorem buffers_get_set_self (b : Buffers) (p : PacketBuf) (m : Memory) : (b.set p m).get p = m := by
  cases p <;> rfl

@[simp] theorem buffers_get_set_other (b : Buffers) (p q : PacketBuf) (m : Memory) (h : q ≠ p) :
    (b.set p m).get q = b.get q := by
  cases p <;> cases q <;> first | rfl | exact absurd rfl h

theorem byteAt_congr {s t : State} (h : t.bufs = s.bufs) (b : PacketBuf) (i : Nat) : t.byteAt b i = s.byteAt b i := by
  simp [State.byteAt, h]

end Sys2Proof.Machine
end

