-- ==== Sys2Proof/Laws/Memory.lean ====
section
/-! SUPPORT. What the memory operations do: read after write, the bytes a write leaves alone, and the canonical form. -/

namespace Sys2Proof.Machine

/-- Read after write of one byte. -/
theorem lookup_insert (m : Memory) (a i : Nat) (v : Byte) :
    Memory.lookup (Memory.insert m a v) i = if i = a then some v else Memory.lookup m i := by
  induction m with
  | nil =>
    by_cases h : i = a
    · simp [Memory.insert, Memory.lookup, h]
    · simp [Memory.insert, Memory.lookup, h, Ne.symm h]
  | cons c m ih =>
    simp only [Memory.insert]
    split
    · by_cases h : i = a
      · simp [Memory.lookup, h]
      · simp [Memory.lookup, h, Ne.symm h]
    · split
      · rename_i h1 h2
        by_cases h : i = a
        · simp [Memory.lookup, h]
        · simp [Memory.lookup, h, Ne.symm h, ← h2]
      · rename_i h1 h2
        by_cases h : i = a
        · subst h
          simp [Memory.lookup, ih, Ne.symm h2]
        · simp [Memory.lookup, ih, h]

/-- Read after write of a run of bytes. -/
theorem lookup_write (m : Memory) (off i : Nat) (v : List Byte) :
    Memory.lookup (Memory.write m off v) i =
      if off ≤ i ∧ i < off + v.length then v[i - off]? else Memory.lookup m i := by
  induction v generalizing m off with
  | nil =>
    have h : ¬ (off ≤ i ∧ i < off) := by omega
    simp [Memory.write, h]
  | cons x v ih =>
    rw [Memory.write, ih, lookup_insert]
    by_cases h : i = off
    · subst h
      simp
    · by_cases h2 : off + 1 ≤ i ∧ i < off + 1 + v.length
      · have h3 : off ≤ i ∧ i < off + (x :: v).length := by simp only [List.length_cons]; omega
        have h4 : i - off = i - (off + 1) + 1 := by omega
        rw [if_pos h2, if_pos h3, h4, List.getElem?_cons_succ]
      · have h3 : ¬ (off ≤ i ∧ i < off + (x :: v).length) := by simp only [List.length_cons]; omega
        simp only [h2, h3, if_false, h]

/-- Every offset of an inserted byte's list is the byte's or an old one. -/
theorem mem_insert (m : Memory) (a : Nat) (v : Byte) (c : Host.Cell) (h : c ∈ Memory.insert m a v) :
    c.1 = a ∨ c ∈ m := by
  induction m with
  | nil => simp [Memory.insert] at h; simp [h]
  | cons d m ih =>
    simp only [Memory.insert] at h
    split at h
    · rcases List.mem_cons.1 h with rfl | h
      · exact .inl rfl
      · exact .inr h
    · split at h
      · rcases List.mem_cons.1 h with rfl | h
        · exact .inl rfl
        · exact .inr (List.mem_cons_of_mem _ h)
      · rcases List.mem_cons.1 h with rfl | h
        · exact .inr List.mem_cons_self
        · rcases ih h with h | h
          · exact .inl h
          · exact .inr (List.mem_cons_of_mem _ h)

/-- Writing a byte keeps the canonical form. -/
theorem insert_wf (m : Memory) (a : Nat) (v : Byte) (ha : a < 64) (h : Memory.wf m) : Memory.wf (Memory.insert m a v) := by
  obtain ⟨hp, hb⟩ := h
  refine ⟨?_, fun c hc => (mem_insert m a v c hc).elim (fun e => e ▸ ha) (hb c)⟩
  clear hb
  induction m with
  | nil => simp [Memory.insert]
  | cons d m ih =>
    have hd := List.pairwise_cons.1 hp
    simp only [Memory.insert]
    split
    · rename_i h1
      refine List.pairwise_cons.2 ⟨fun c hc => ?_, hp⟩
      rcases List.mem_cons.1 hc with rfl | hc
      · exact h1
      · exact Nat.lt_trans h1 (hd.1 c hc)
    · split
      · rename_i h1 h2
        exact List.pairwise_cons.2 ⟨fun c hc => h2 ▸ hd.1 c hc, hd.2⟩
      · rename_i h1 h2
        refine List.pairwise_cons.2 ⟨fun c hc => ?_, ih hd.2⟩
        rcases mem_insert m a v c hc with e | hc
        · exact e ▸ (by omega : d.1 < a)
        · exact hd.1 c hc

/-- Writing a run of bytes within the buffer keeps the canonical form. -/
theorem write_wf (m : Memory) (off : Nat) (v : List Byte) (hv : off + v.length ≤ 64) (h : Memory.wf m) :
    Memory.wf (Memory.write m off v) := by
  induction v generalizing m off with
  | nil => exact h
  | cons x v ih =>
    simp only [List.length_cons] at hv
    exact ih _ (off + 1) (by omega) (insert_wf m off x (by omega) h)

/-- The bytes a run of bytes leaves at its offsets and elsewhere, as a buffer reads. -/
theorem writeBytes_byteAt (s : State) (p q : PacketBuf) (off i : Nat) (v : List Byte) :
    (s.writeBytes p off v).byteAt q i =
      if q = p ∧ off ≤ i ∧ i < off + v.length then (v[i - off]?).getD 0 else s.byteAt q i := by
  by_cases h : q = p
  · subst h
    simp only [State.byteAt, writeBytes_bufs, buffers_get_set_self, lookup_write, true_and]
    by_cases hi : off ≤ i ∧ i < off + v.length
    · have : i - off < v.length := by omega
      simp [hi, List.getElem?_eq_getElem this]
    · simp [hi]
  · simp [State.byteAt, h]

/-- A run written from offset 0 stands there and nowhere else. -/
theorem writeBytes_stored (s : State) (p : PacketBuf) (v : List Byte) : StoredFrom0 p v s (s.writeBytes p 0 v) := by
  refine ⟨fun i hi => ?_, fun b i h => ?_⟩
  · rw [writeBytes_byteAt, if_pos ⟨rfl, by omega, by omega⟩]
    simp [List.getElem?_eq_getElem hi]
  · rw [writeBytes_byteAt, if_neg]
    rintro ⟨rfl, -, h2⟩
    rcases h with h | h
    · exact h rfl
    · omega

/-- A run written within the buffer keeps every buffer canonical. -/
theorem writeBytes_wf (s : State) (p : PacketBuf) (off : Nat) (v : List Byte) (hv : off + v.length ≤ 64)
    (h : ∀ q, Memory.wf (s.bufs.get q)) (q : PacketBuf) : Memory.wf ((s.writeBytes p off v).bufs.get q) := by
  by_cases hq : q = p
  · subst hq
    simpa using write_wf _ off v hv (h q)
  · simpa [hq] using h q

/-- The power-on buffers are in canonical form. -/
theorem reset_buffers_wf (q : PacketBuf) : Memory.wf (State.reset.bufs.get q) := by
  cases q <;> exact ⟨List.Pairwise.nil, fun _ h => nomatch h⟩

@[simp] theorem bytesFrom_length (s : State) (b : PacketBuf) (off n : Nat) : (s.bytesFrom b off n).length = n := by
  induction n generalizing off with
  | zero => rfl
  | succ n ih => simp [State.bytesFrom, ih]

/-- The bytes read from a buffer are its bytes. -/
theorem bytesFrom_getElem? (s : State) (b : PacketBuf) (off n i : Nat) (h : i < n) :
    (s.bytesFrom b off n)[i]? = some (s.byteAt b (off + i)) := by
  induction n generalizing off i with
  | zero => omega
  | succ n ih =>
    cases i with
    | zero => rfl
    | succ i => simpa [State.bytesFrom, Nat.add_assoc, Nat.add_comm 1 i] using ih (off + 1) i (by omega)

/-- Reads agree where the buffers do. -/
theorem bytesFrom_congr {s t : State} (h : t.bufs = s.bufs) (b : PacketBuf) (off n : Nat) :
    t.bytesFrom b off n = s.bytesFrom b off n := by
  induction n generalizing off with
  | zero => rfl
  | succ n ih => simp [State.bytesFrom, ih, byteAt_congr h]

end Sys2Proof.Machine
end

