-- ==== Sys2Proof/Laws/Ops.lean ====
section
/-! SUPPORT. What each shared operation does, said once: sequencing, bounded reads and writes, emission, the stage procedures and the
CSW. -/

namespace Sys2Proof.Machine

-- ## Sequencing

@[simp] theorem andThen_next {α β : Type} (a : α) (f : α → Host.Outcome β Fault Refusal) : andThen (.next a) f = f a := rfl
@[simp] theorem andThen_fault {α β : Type} (r : Fault) (f : α → Host.Outcome β Fault Refusal) :
    andThen (.fault r) f = .fault r := rfl
@[simp] theorem andThen_refused {α β : Type} (r : Refusal) (f : α → Host.Outcome β Fault Refusal) :
    andThen (.refused r) f = .refused r := rfl

/-- A sequence answers a next state exactly when both parts do. -/
theorem andThen_eq_next {α β : Type} {x : Host.Outcome α Fault Refusal} {f : α → Host.Outcome β Fault Refusal} {b : β} :
    andThen x f = .next b ↔ ∃ a, x = .next a ∧ f a = .next b := by
  cases x <;> simp [andThen]

-- ## The placement of the buffers

/-- The 64-byte regions of two packet buffers do not overlap (00_scope.md R16). -/
theorem bufAddr_apart {p q : PacketBuf} (h : p ≠ q) :
    Config.bufAddr p + 64 ≤ Config.bufAddr q ∨ Config.bufAddr q + 64 ≤ Config.bufAddr p :=
  Config.bufLayout.apart p q h

/-- An address names one packet buffer (00_scope.md R16). -/
@[simp] theorem bufAddr_inj {p q : PacketBuf} : Config.bufAddr p = Config.bufAddr q ↔ p = q :=
  ⟨fun h => by_contra fun n => by have := bufAddr_apart n; omega, congrArg _⟩

/-- Different banks own different buffers (20_memory.md R34). -/
@[simp] theorem ownBuffer_inj {a b : Bank} : ownBuffer a = ownBuffer b ↔ a = b := by cases a <;> cases b <;> simp [ownBuffer]

-- ## Bounded reads and writes

theorem memRead_ok (s : State) (b : PacketBuf) (off n : Nat) (h : off + n ≤ 64) :
    memRead s b off n = .next (s.bytesFrom b off n) := by simp [memRead, Config.pktBufSize, h]

theorem memWrite_ok (s : State) (b : PacketBuf) (off : Nat) (v : List Byte) (h : off + v.length ≤ 64) :
    memWrite s b off v = .next (s.writeBytes b off v) := by simp [memWrite, Config.pktBufSize, h]

theorem tableRead_ok (t : List Byte) (n : Nat) (h : n ≤ t.length) : tableRead t 0 n = .next (t.take n) := by
  simp [tableRead, h]

@[simp] theorem deviceDescriptor_length : deviceDescriptor.length = 18 := rfl
@[simp] theorem configDescriptor_length : configDescriptor.length = 32 := rfl
@[simp] theorem inquiryData_length : inquiryData.length = 36 := rfl
@[simp] theorem readcapData_length : readcapData.length = 8 := rfl
@[simp] theorem cswBytes_length (w : Csw) : w.bytes.length = 13 := rfl

-- ## Emission

@[simp] theorem emit_release (ep : OutEp) (s : State) :
    emit (.release ep) s = .next ((releaseBank ep s).pushOp (.release ep)) := rfl
@[simp] theorem emit_stall (b : Bank) (s : State) : emit (.stall b) s = .next ((setStall b true s).pushOp (.stall b)) := rfl
@[simp] theorem emit_clearStall (b : Bank) (s : State) :
    emit (.clearStall b) s = .next ((setStall b false s).pushOp (.clearStall b)) := rfl
@[simp] theorem emit_writeAddress (v : Byte) (s : State) :
    emit (.writeAddress v) s = .next ({ s with devAddr := v }.pushOp (.writeAddress v)) := rfl

theorem emit_armSend (ep : InEp) (n : Nat) (s : State) (h : n ≤ 64) :
    emit (.armSend ep n) s =
      .next ((s.setBank (inBank ep) { s.bank (inBank ep) with byteCount := BitVec.ofNat 32 n, ready := true }).pushOp
        (.armSend ep n)) := by
  simp [emit, applyOp, armBank, Nat.not_lt.2 h]

theorem emit_configure (b : Bank) (ty : EpType) (mps : Nat) (s : State) (h : mps ≤ 64) :
    emit (.configure b ty (ownBuffer b) mps) s =
      .next ((s.setBank b (.configuredAs ty (ownBuffer b) mps)).pushOp (.configure b ty (ownBuffer b) mps)) := by
  simp [emit, applyOp, configureBank, h]

/-- Emission changes the bank table, the address register and the output list, and nothing else. -/
theorem emit_frame {op : BankOp} {s t : State} (h : emit op s = .next t) :
    t = { s with banks := t.banks, devAddr := t.devAddr, out := { s.out with ops := s.out.ops ++ [op] } } := by
  cases op <;> simp only [emit, applyOp, configureBank, armBank] at h <;> try split at h
  all_goals first
    | (simp at h; done)
    | (simp only [andThen_next, Host.Outcome.next.injEq] at h; subst h; rfl)

-- ## Stage procedures

/-- `zlp_ack` arms an empty EP0 IN packet and enters NoDataStatus (42_control_engine.md R93). -/
theorem zlpAck_eq (s : State) :
    zlpAck s = .next { (s.setBank .ep0In { s.bank .ep0In with byteCount := 0, ready := true }).pushOp (.armSend .ep0 0) with
      ep0State := .noDataStatus } := rfl

/-- `in_stage` of a response of at most 64 bytes (42_control_engine.md R92). -/
theorem inStage_eq (v : List Byte) (s : State) (h : v.length ≤ 64) :
    inStage v s = .next { (((s.writeBytes .ep0InBuf 0 v).setBank .ep0In
        { s.bank .ep0In with byteCount := BitVec.ofNat 32 v.length, ready := true }).pushOp (.armSend .ep0 v.length)) with
      ep0State := .dataStageIn } := by
  have hm : min v.length 64 = v.length := by omega
  simp [inStage, Config.ep0Mps, hm, memWrite_ok _ _ _ _ (by omega : 0 + v.length ≤ 64), emit_armSend _ _ _ h, inBank]

/-- Response to UnsupportedRequest (60_exceptions.md R135). -/
theorem raiseUnsupportedRequest_eq (s : State) :
    raiseUnsupportedRequest s = .next { (setStall .ep0In true ((setStall .ep0Out true s).pushOp (.stall .ep0Out))).pushOp
      (.stall .ep0In) with ep0State := .expectSetup } := rfl

/-- `resolve` of a known descriptor (41_descriptor_table.md R83). -/
theorem resolve_known (t : BitVec 8) (len : BitVec 16) (d : List Byte) (h : descriptorOf t = some d) :
    resolve t len = .next (some (d.take (min len.toNat d.length))) := by
  simp [resolve, h, tableRead_ok _ _ (Nat.min_le_right _ _)]

/-- `resolve` of an unknown type (41_descriptor_table.md R83). -/
theorem resolve_unknown (t : BitVec 8) (len : BitVec 16) (h : descriptorOf t = none) : resolve t len = .next none := by
  simp [resolve, h]

-- ## CSW and data staging

/-- Staging a CSW (43_bot_engine.md R106, R107). -/
theorem stageCsw_eq (s : State) :
    stageCsw s = .next ({ s.withCsw.writeBytes .ep1InBuf 0 s.withCsw.csw.bytes with botState := .cswPending }, .send 13) := by
  simp [stageCsw, buildCsw, memWrite_ok]

/-- Staging the first bytes of a response table (44_scsi_commands.md R122, R123). -/
theorem stageData_eq (d : List Byte) (s : State) (h : d.length ≤ 64) :
    stageData d s = .next ({ s.writeBytes .ep1InBuf 0 (d.take (min s.cbw.dataTransferLength.toNat d.length)) with
      remaining := BitVec.ofNat 32 (s.remaining.toNat - min s.cbw.dataTransferLength.toNat d.length)
      botState := .dataInPending }, .send (min s.cbw.dataTransferLength.toNat d.length)) := by
  simp only [stageData]
  rw [tableRead_ok _ _ (Nat.min_le_right _ _), andThen_next, memWrite_ok, andThen_next]
  · rfl
  · simp only [List.length_take]; omega

end Sys2Proof.Machine
end

