-- ==== Sys2Proof/Laws/Frames.lean ====
section
/-! SUPPORT. The agreement predicates of Safety: how to show them from the fields, and that each is transitive; and reading a bank of a
state written out field by field. -/

namespace Sys2Proof.Machine

@[simp] theorem inBank_ep0 : inBank .ep0 = .ep0In := rfl
@[simp] theorem inBank_ep1 : inBank .ep1 = .ep1In := rfl
@[simp] theorem outBank_ep0 : outBank .ep0 = .ep0Out := rfl
@[simp] theorem outBank_ep2 : outBank .ep2 = .ep2Out := rfl

/-- A bank of a state written out field by field. -/
@[simp] theorem bank_mk (e : Ep0State) (r : SetupRequest) (v : Bool) (p : BitVec 7) (d : BitVec 8) (bs : BotState) (c : Cbw)
    (w : Csw) (n : BitVec 32) (k : Banks) (f : Flags) (m : Buffers) (o : Output) (l : List ScriptLine) (b : Bank) :
    (State.mk e r v p d bs c w n k f m o l).bank b = k.get b := rfl

/-- Reading a bank out of the bank table. -/
@[simp] theorem banks_get_state (s : State) (b : Bank) : s.banks.get b = s.bank b := rfl

-- ## withCsw

@[simp] theorem withCsw_ep0State (s : State) : s.withCsw.ep0State = s.ep0State := rfl
@[simp] theorem withCsw_setup (s : State) : s.withCsw.setup = s.setup := rfl
@[simp] theorem withCsw_addrPendingValid (s : State) : s.withCsw.addrPendingValid = s.addrPendingValid := rfl
@[simp] theorem withCsw_addrPending (s : State) : s.withCsw.addrPending = s.addrPending := rfl
@[simp] theorem withCsw_devAddr (s : State) : s.withCsw.devAddr = s.devAddr := rfl
@[simp] theorem withCsw_botState (s : State) : s.withCsw.botState = s.botState := rfl
@[simp] theorem withCsw_cbw (s : State) : s.withCsw.cbw = s.cbw := rfl
@[simp] theorem withCsw_remaining (s : State) : s.withCsw.remaining = s.remaining := rfl
@[simp] theorem withCsw_banks (s : State) : s.withCsw.banks = s.banks := rfl
@[simp] theorem withCsw_flags (s : State) : s.withCsw.flags = s.flags := rfl
@[simp] theorem withCsw_bufs (s : State) : s.withCsw.bufs = s.bufs := rfl
@[simp] theorem withCsw_out (s : State) : s.withCsw.out = s.out := rfl
@[simp] theorem withCsw_script (s : State) : s.withCsw.script = s.script := rfl
@[simp] theorem withCsw_csw (s : State) : s.withCsw.csw = ⟨s.cbw.tag, s.remaining, s.csw.status⟩ := rfl
@[simp] theorem withCsw_bank (s : State) (b : Bank) : s.withCsw.bank b = s.bank b := rfl

/-- The bytes `build_csw` writes are those of the closing CSW (43_bot_engine.md R106). -/
@[simp] theorem csw_bytes_closing (s : State) : Csw.bytes ⟨s.cbw.tag, s.remaining, s.csw.status⟩ = closingCsw s := rfl

-- ## Agreement

/-- Equal buffers read alike. -/
theorem sameBytes_of_bufs {s t : State} (h : t.bufs = s.bufs) : SameBytes s t := fun b i => byteAt_congr h b i

/-- What stands in a buffer depends on the buffers alone. -/
theorem StoredFrom0.congr {p : PacketBuf} {v : List Byte} {s t s' t' : State} (h : StoredFrom0 p v s t)
    (hs : s'.bufs = s.bufs) (ht : t'.bufs = t.bufs) : StoredFrom0 p v s' t' :=
  ⟨fun i hi => by rw [byteAt_congr ht]; exact h.1 i hi,
   fun b i hb => by rw [byteAt_congr ht, byteAt_congr hs]; exact h.2 b i hb⟩

theorem SameControl.refl (s : State) : SameControl s s := ⟨rfl, rfl, rfl, rfl, rfl⟩
theorem SameBot.refl (s : State) : SameBot s s := ⟨rfl, rfl, rfl, rfl⟩
theorem SameBytes.refl (s : State) : SameBytes s s := fun _ _ => rfl
theorem SameInputs.refl (s : State) : SameInputs s s := ⟨rfl, rfl⟩
theorem SameBanksBut.refl (l : List Bank) (s : State) : SameBanksBut l s s := fun _ _ => rfl
theorem Emits.refl (s : State) : Emits [] s s := by simp [Emits]

theorem SameControl.trans {s t u : State} (h : SameControl s t) (k : SameControl t u) : SameControl s u :=
  ⟨k.1.trans h.1, k.2.trans h.2, k.3.trans h.3, k.4.trans h.4, k.5.trans h.5⟩
theorem SameBot.trans {s t u : State} (h : SameBot s t) (k : SameBot t u) : SameBot s u :=
  ⟨k.1.trans h.1, k.2.trans h.2, k.3.trans h.3, k.4.trans h.4⟩
theorem SameBytes.trans {s t u : State} (h : SameBytes s t) (k : SameBytes t u) : SameBytes s u :=
  fun b i => (k b i).trans (h b i)
theorem SameInputs.trans {s t u : State} (h : SameInputs s t) (k : SameInputs t u) : SameInputs s u :=
  ⟨k.1.trans h.1, k.2.trans h.2⟩
theorem SameBanksBut.trans {l : List Bank} {s t u : State} (h : SameBanksBut l s t) (k : SameBanksBut l t u) :
    SameBanksBut l s u := fun b hb => (k b hb).trans (h b hb)
theorem Emits.trans {a b : List BankOp} {s t u : State} (h : Emits a s t) (k : Emits b t u) : Emits (a ++ b) s u := by
  simp only [Emits] at *; rw [k, h, List.append_assoc]

end Sys2Proof.Machine
end

