-- ==== Sys2Proof/Laws/Engine.lean ====
section
/-! SUPPORT. The composed rules of the engine as one equation each: a SETUP event, a bus reset, SET_CONFIGURATION, taking a CBW, applying
an outcome, and the cases of the next move. -/

namespace Sys2Proof.Machine

-- ## Control engine

/-- The request rule of a latched SETUP is the instruction it decodes to (30_encoding.md R60). -/
theorem runRequest_eq (r : SetupRequest) (s : State) : runRequest r s = exec (decodeSetup r) s := by
  unfold runRequest decodeSetup; cases setupRow r <;> rfl

/-- The state a SETUP event hands to its request (42_control_engine.md R84). -/
def afterPreamble (s : State) : State :=
  (releaseBank .ep0 ((setStall .ep0In false ((setStall .ep0Out false (latchSetup (receivedSetup s) s)).pushOp
    (.clearStall .ep0Out))).pushOp (.clearStall .ep0In))).pushOp (.release .ep0)

/-- EP0_SETUP: the preamble, then the request (42_control_engine.md R84). -/
theorem execEp0Setup_eq (s : State) : execEp0Setup s = exec (decodeSetup (receivedSetup s)) (afterPreamble s) := by
  unfold execEp0Setup
  rw [memRead_ok _ _ _ _ (by omega)]
  simp only [andThen_next, setupPreamble, emitAll, emit_release, emit_clearStall, runRequest_eq]
  rfl

/-- The state SET_CONFIGURATION acknowledges in (42_control_engine.md R100). -/
def bulkConfigured (s : State) : State :=
  (releaseBank .ep2 (((s.setBank .ep1In (.configuredAs .bulk .ep1InBuf 64)).pushOp
    (.configure .ep1In .bulk .ep1InBuf 64)).setBank .ep2Out (.configuredAs .bulk .ep2OutBuf 64) |>.pushOp
    (.configure .ep2Out .bulk .ep2OutBuf 64))).pushOp (.release .ep2)

/-- SET_CONFIGURATION (42_control_engine.md R100). -/
theorem execSetConfiguration_eq (rt : BitVec 7) (value index : BitVec 16) (s : State) :
    execSetConfiguration rt value index s = zlpAck (bulkConfigured s) := by
  simp only [execSetConfiguration, emitAll, Config.bulkMps]
  have h1 := emit_configure .ep1In .bulk 64
  have h2 := emit_configure .ep2Out .bulk 64
  simp only [ownBuffer] at h1 h2
  rw [h1 _ (by omega)]
  simp only [andThen_next]
  rw [h2 _ (by omega)]
  simp [bulkConfigured]

/-- BUS_RESET (70_reset_and_hazards.md R148). -/
theorem execBusReset_eq (s : State) :
    execBusReset s = .next (resetRegisters ((releaseBank .ep0 (((s.setBank .ep0Out (.configuredAs .control .ep0OutBuf 64)).pushOp
      (.configure .ep0Out .control .ep0OutBuf 64)).setBank .ep0In (.configuredAs .control .ep0InBuf 64) |>.pushOp
      (.configure .ep0In .control .ep0InBuf 64))).pushOp (.release .ep0))) := by
  simp only [execBusReset, emitAll, Config.ep0Mps]
  have h1 := emit_configure .ep0Out .control 64
  have h2 := emit_configure .ep0In .control 64
  simp only [ownBuffer] at h1 h2
  rw [h1 _ (by omega)]
  simp only [andThen_next]
  rw [h2 _ (by omega)]
  simp

-- ## Taking a CBW

/-- The two tests of a strict check (44_scsi_commands.md R119). -/
theorem cbwAccepted_strict (l g : BitVec 32) : cbwAccepted .strict l g = true ↔ l = 31 ∧ g = 0x43425355 := by
  simp [cbwAccepted, usbcSignature]

/-- `cbw_valid` under Strict (44_scsi_commands.md R119). -/
theorem cbwValid_strict (s : State) :
    cbwValid .strict s = .next (cbwAccepted .strict (s.bank .ep2Out).byteCount (receivedCbw s).signature) := by
  simp only [cbwValid]
  rw [memRead_ok _ _ _ _ (by omega)]
  rfl

/-- The state with the received CBW accepted (44_scsi_commands.md R120). -/
def cbwTaken (s : State) : State :=
  { s with cbw := receivedCbw s, remaining := (receivedCbw s).dataTransferLength, csw := { s.csw with status := 0 } }

theorem acceptCbw_eq (s : State) : acceptCbw (s.bytesFrom .ep2OutBuf 0 31) s = cbwTaken s := by
  have : Cbw.ofBytes (s.bytesFrom .ep2OutBuf 0 31) = receivedCbw s := by
    simp only [Cbw.ofBytes, receivedCbw, State.bytesFrom]
    congr 1
  simp [acceptCbw, cbwTaken, this]

/-- ExpectingCBW × BulkOut under Strict (44_scsi_commands.md R119, R120). -/
theorem takeCbw_strict (s : State) :
    takeCbw .strict s =
      if (s.bank .ep2Out).byteCount = 31 ∧ (receivedCbw s).signature = 0x43425355 then runScsi (cbwTaken s)
      else raiseMalformedCbw s := by
  unfold takeCbw
  rw [cbwValid_strict]
  simp only [andThen_next, cbwAccepted_strict]
  split
  · rw [memRead_ok _ _ _ _ (by omega), andThen_next, acceptCbw_eq]
  · rfl

/-- The SCSI row an accepted CBW takes is the instruction it decodes to (30_encoding.md R61). -/
theorem runScsi_eq (s : State) : recordOutcome (runScsi s) = exec (decodeCbw .strict 31 usbcSignature s.cbw.opcode) s := by
  unfold runScsi decodeCbw
  simp only [cbwAccepted, beq_self_eq_true, Bool.and_self, if_true]
  cases scsiRow s.cbw.opcode <;> rfl

-- ## Applying an outcome

/-- `apply_outcome` of a packet that fits: bulk IN and the output list change, and nothing else (43_bot_engine.md R114). -/
theorem applyOutcome_spec (o : BotOutcome) (s : State) (h : ∀ n, o = .send n → n ≤ 64) :
    ∃ t, applyOutcome o s = .next t ∧ t = { s with banks := t.banks, out := { s.out with ops := s.out.ops ++ outcomeOps o } } ∧
      t.bank .ep1In = outcomeBank o (s.bank .ep1In) ∧ SameBanksBut [.ep1In] s t := by
  cases o with
  | send n =>
    refine ⟨_, emit_armSend .ep1 n s (h n rfl), rfl, by simp [outcomeBank], fun c hc => ?_⟩
    simp only [List.mem_singleton] at hc
    simp [hc]
  | noData => exact ⟨_, rfl, by simp [outcomeOps], rfl, fun _ _ => rfl⟩
  | requestStall =>
    refine ⟨_, emit_stall .ep1In s, rfl, by simp [outcomeBank], fun c hc => ?_⟩
    simp only [List.mem_singleton] at hc
    simp [hc]

-- ## The next move

/-- What a next move can be, and that it uses up at most a line of the script. -/
theorem nextMove_cases (s : State) :
    (∃ u, nextMove s = (.idle, u) ∧ u = { s with script := u.script } ∧ ∀ l ∈ u.script, l ∈ s.script) ∨
    (∃ m u, nextMove s = (.host m, u) ∧ u = { s with script := u.script } ∧ .host m ∈ s.script ∧
      ∀ l ∈ u.script, l ∈ s.script) ∨
    (∃ e u, nextMove s = (.event e, u) ∧ s.flags.next = some e ∧ u = { s with script := u.script } ∧
      ∀ l ∈ u.script, l ∈ s.script) := by
  unfold nextMove engineMove
  split
  · cases hn : s.flags.next with
    | none => exact .inl ⟨s, rfl, rfl, fun _ h => h⟩
    | some e => exact .inr (.inr ⟨e, s, rfl, rfl, rfl, fun _ h => h⟩)
  · rename_i m rest hs
    exact .inr (.inl ⟨m, _, rfl, rfl, by rw [hs]; simp, fun l h => by rw [hs]; exact List.mem_cons_of_mem _ h⟩)
  · rename_i rest hs
    cases hn : s.flags.next with
    | none => exact .inl ⟨_, rfl, rfl, fun l h => by rw [hs]; exact List.mem_cons_of_mem _ h⟩
    | some e => exact .inr (.inr ⟨e, _, rfl, rfl, rfl, fun l h => by rw [hs]; exact List.mem_cons_of_mem _ h⟩)
  · rename_i rest hs
    cases hn : s.flags.next with
    | none => exact .inl ⟨_, rfl, rfl, fun l h => by rw [hs]; exact List.mem_cons_of_mem _ h⟩
    | some e => exact .inr (.inr ⟨e, s, rfl, rfl, rfl, fun l h => h⟩)

end Sys2Proof.Machine
end

