-- ==== Sys2Proof/Laws/PerInstr.lean ====
section
/-! SUPPORT. The statements made once per instruction. EncodedRow: the raw word of an instruction has its row's format, and its
table field AND the row's mask is the row's match, as spec/opcode_table.json writes them. -/

namespace Sys2Proof.Laws.EncodedRow

/-- A row of spec/opcode_table.json: its format, match and mask. -/
structure Row where
  format : Format
  pattern : BitVec 64
  mask : BitVec 64

/-- The field of a raw word that the table's match and mask are about. -/
def field : Raw → BitVec 64
  | .setup w => w
  | .cbwOp _ _ opcode => opcode.setWidth 64
  | .event code => code.setWidth 64
  | .botCell v => v.setWidth 64
  | .op code _ _ _ _ _ _ => code.setWidth 64

/-- The row of each instruction, copied from spec/opcode_table.json. -/
def row : Instr → Row
  | .classGetMaxLun _ _ => ⟨.setup, 0x000000000000FEA1, 0x0000FFFF0000FFFF⟩
  | .classInUnsupported _ _ _ => ⟨.setup, 0x00000000000000A1, 0x0000FFFF000000FF⟩
  | .getDescriptorDevice _ _ _ _ => ⟨.setup, 0x0000000001000680, 0x00000000FF00FF80⟩
  | .getDescriptorConfiguration _ _ _ _ => ⟨.setup, 0x0000000002000680, 0x00000000FF00FF80⟩
  | .getDescriptorUnsupported _ _ _ _ _ => ⟨.setup, 0x0000000000000680, 0x000000000000FF80⟩
  | .inUnsupported _ _ _ _ _ => ⟨.setup, 0x0000000000000080, 0x0000000000000080⟩
  | .setAddress _ _ _ => ⟨.setup, 0x0000000000000500, 0xFFFF00000000FF80⟩
  | .setConfiguration _ _ _ => ⟨.setup, 0x0000000000000900, 0xFFFF00000000FF80⟩
  | .clearFeatureEp81 _ _ => ⟨.setup, 0x0000008100000100, 0xFFFFFFFF0000FF80⟩
  | .outDefaultAck _ _ _ _ => ⟨.setup, 0x0000000000000000, 0xFFFF000000000080⟩
  | .outWithData _ _ _ _ _ => ⟨.setup, 0x0000000000000000, 0x0000000000000080⟩
  | .scsiInvalidCbw _ _ _ => ⟨.cbwOp, 0x00, 0x00⟩
  | .scsiTestUnitReady => ⟨.cbwOp, 0x00, 0xFF⟩
  | .scsiInquiry => ⟨.cbwOp, 0x12, 0xFF⟩
  | .scsiReadCapacity10 => ⟨.cbwOp, 0x25, 0xFF⟩
  | .scsiUnsupported _ => ⟨.cbwOp, 0x00, 0x00⟩
  | .busReset => ⟨.event, 0x0, 0xF⟩
  | .ep0TrcptIn => ⟨.event, 0x1, 0xF⟩
  | .ep0TrcptOut => ⟨.event, 0x2, 0xF⟩
  | .ep0Setup => ⟨.event, 0x3, 0xF⟩
  | .ep0StallIn => ⟨.event, 0x4, 0xF⟩
  | .ep0StallOut => ⟨.event, 0x5, 0xF⟩
  | .ep1TrcptIn => ⟨.event, 0x6, 0xF⟩
  | .ep1StallIn => ⟨.event, 0x7, 0xF⟩
  | .ep2TrcptOut => ⟨.event, 0x8, 0xF⟩
  | .ep2StallOut => ⟨.event, 0x9, 0xF⟩
  | .botExpectingCbwBulkOut => ⟨.botCell, 0x00, 0x1F⟩
  | .botExpectingCbwBulkInComplete => ⟨.botCell, 0x01, 0x1F⟩
  | .botExpectingCbwStallCleared => ⟨.botCell, 0x02, 0x1F⟩
  | .botDataInPendingBulkOut => ⟨.botCell, 0x04, 0x1F⟩
  | .botDataInPendingBulkInComplete => ⟨.botCell, 0x05, 0x1F⟩
  | .botDataInPendingStallCleared => ⟨.botCell, 0x06, 0x1F⟩
  | .botExpectingDataOutBulkOut => ⟨.botCell, 0x08, 0x1F⟩
  | .botExpectingDataOutBulkInComplete => ⟨.botCell, 0x09, 0x1F⟩
  | .botExpectingDataOutStallCleared => ⟨.botCell, 0x0A, 0x1F⟩
  | .botCswPendingBulkOut => ⟨.botCell, 0x0C, 0x1F⟩
  | .botCswPendingBulkInComplete => ⟨.botCell, 0x0D, 0x1F⟩
  | .botCswPendingStallCleared => ⟨.botCell, 0x0E, 0x1F⟩
  | .botStallPendingBulkOut => ⟨.botCell, 0x10, 0x1F⟩
  | .botStallPendingBulkInComplete => ⟨.botCell, 0x11, 0x1F⟩
  | .botStallPendingStallCleared => ⟨.botCell, 0x12, 0x1F⟩
  | .botErrorBulkOut => ⟨.botCell, 0x14, 0x1F⟩
  | .botErrorBulkInComplete => ⟨.botCell, 0x15, 0x1F⟩
  | .botErrorStallCleared => ⟨.botCell, 0x16, 0x1F⟩
  | .configure _ _ _ _ _ => ⟨.op, 0x0, 0x7⟩
  | .armSend _ _ => ⟨.op, 0x1, 0x7⟩
  | .bytesReceived _ => ⟨.op, 0x2, 0x7⟩
  | .release _ => ⟨.op, 0x3, 0x7⟩
  | .stall _ _ => ⟨.op, 0x4, 0x7⟩
  | .clearStall _ _ => ⟨.op, 0x5, 0x7⟩
  | .writeAddress _ => ⟨.op, 0x6, 0x7⟩

/-- The raw word of an instruction is a word of its row. -/
def Statement (i : Instr) : Prop :=
  (encode i).format = (row i).format ∧ field (encode i) &&& (row i).mask = (row i).pattern

/-- A SETUP word fits a row when its fields do. -/
theorem setup_fits {r m p : SetupRequest} {M P : BitVec 64} (hM : M = m.word) (hP : P = p.word)
    (h : (⟨r.requestType &&& m.requestType, r.request &&& m.request, r.value &&& m.value, r.index &&& m.index,
      r.length &&& m.length⟩ : SetupRequest) = p) : r.word &&& M = P := by
  rw [hM, hP, word_and, h]

theorem dir_out (rt : BitVec 7) : (0#1 ++ rt : BitVec 8) &&& 0x80 = 0 := by revert rt; decide
theorem dir_in (rt : BitVec 7) : (1#1 ++ rt : BitVec 8) &&& 0x80 = 0x80 := by revert rt; decide

/-- The high byte of a value, masked. -/
theorem high_byte (t i : BitVec 8) : (t ++ i : BitVec 16) &&& 0xFF00 = t ++ 0#8 := by
  rw [show (0xFF00 : BitVec 16) = 0xFF#8 ++ 0#8 from rfl, BitVec.and_append]
  have h : t &&& 0xFF#8 = t := BitVec.and_allOnes
  simp [h]

theorem classGetMaxLun (value : BitVec 16) (length : BitVec 16) : Statement (.classGetMaxLun value length) := by
  refine ⟨rfl, setup_fits (m := ⟨0xFF, 0xFF, 0x0, 0xFFFF, 0x0⟩) (p := ⟨0xA1, 0xFE, 0x0, 0x0, 0x0⟩) rfl rfl ?_⟩
  simp

theorem classInUnsupported (request : BitVec 8) (value : BitVec 16) (length : BitVec 16) : Statement (.classInUnsupported request value length) := by
  refine ⟨rfl, setup_fits (m := ⟨0xFF, 0x0, 0x0, 0xFFFF, 0x0⟩) (p := ⟨0xA1, 0x0, 0x0, 0x0, 0x0⟩) rfl rfl ?_⟩
  simp

theorem getDescriptorDevice (rt : BitVec 7) (descIndex : BitVec 8) (index : BitVec 16) (length : BitVec 16) : Statement (.getDescriptorDevice rt descIndex index length) := by
  refine ⟨rfl, setup_fits (m := ⟨0x80, 0xFF, 0xFF00, 0x0, 0x0⟩) (p := ⟨0x80, 0x6, 0x100, 0x0, 0x0⟩) rfl rfl ?_⟩
  simp only [dir_in]
  simp
  exact high_byte 1 descIndex

theorem getDescriptorConfiguration (rt : BitVec 7) (descIndex : BitVec 8) (index : BitVec 16) (length : BitVec 16) : Statement (.getDescriptorConfiguration rt descIndex index length) := by
  refine ⟨rfl, setup_fits (m := ⟨0x80, 0xFF, 0xFF00, 0x0, 0x0⟩) (p := ⟨0x80, 0x6, 0x200, 0x0, 0x0⟩) rfl rfl ?_⟩
  simp only [dir_in]
  simp
  exact high_byte 2 descIndex

theorem getDescriptorUnsupported (rt : BitVec 7) (descType : BitVec 8) (descIndex : BitVec 8) (index : BitVec 16) (length : BitVec 16) : Statement (.getDescriptorUnsupported rt descType descIndex index length) := by
  refine ⟨rfl, setup_fits (m := ⟨0x80, 0xFF, 0x0, 0x0, 0x0⟩) (p := ⟨0x80, 0x6, 0x0, 0x0, 0x0⟩) rfl rfl ?_⟩
  simp only [dir_in]
  simp

theorem inUnsupported (rt : BitVec 7) (request : BitVec 8) (value : BitVec 16) (index : BitVec 16) (length : BitVec 16) : Statement (.inUnsupported rt request value index length) := by
  refine ⟨rfl, setup_fits (m := ⟨0x80, 0x0, 0x0, 0x0, 0x0⟩) (p := ⟨0x80, 0x0, 0x0, 0x0, 0x0⟩) rfl rfl ?_⟩
  simp only [dir_in]
  simp

theorem setAddress (rt : BitVec 7) (value : BitVec 16) (index : BitVec 16) : Statement (.setAddress rt value index) := by
  refine ⟨rfl, setup_fits (m := ⟨0x80, 0xFF, 0x0, 0x0, 0xFFFF⟩) (p := ⟨0x0, 0x5, 0x0, 0x0, 0x0⟩) rfl rfl ?_⟩
  simp only [dir_out]
  simp

theorem setConfiguration (rt : BitVec 7) (value : BitVec 16) (index : BitVec 16) : Statement (.setConfiguration rt value index) := by
  refine ⟨rfl, setup_fits (m := ⟨0x80, 0xFF, 0x0, 0x0, 0xFFFF⟩) (p := ⟨0x0, 0x9, 0x0, 0x0, 0x0⟩) rfl rfl ?_⟩
  simp only [dir_out]
  simp

theorem clearFeatureEp81 (rt : BitVec 7) (value : BitVec 16) : Statement (.clearFeatureEp81 rt value) := by
  refine ⟨rfl, setup_fits (m := ⟨0x80, 0xFF, 0x0, 0xFFFF, 0xFFFF⟩) (p := ⟨0x0, 0x1, 0x0, 0x81, 0x0⟩) rfl rfl ?_⟩
  simp only [dir_out]
  simp

theorem outDefaultAck (rt : BitVec 7) (request : BitVec 8) (value : BitVec 16) (index : BitVec 16) : Statement (.outDefaultAck rt request value index) := by
  refine ⟨rfl, setup_fits (m := ⟨0x80, 0x0, 0x0, 0x0, 0xFFFF⟩) (p := ⟨0x0, 0x0, 0x0, 0x0, 0x0⟩) rfl rfl ?_⟩
  simp only [dir_out]
  simp

theorem outWithData (rt : BitVec 7) (request : BitVec 8) (value : BitVec 16) (index : BitVec 16) (length : BitVec 16) : Statement (.outWithData rt request value index length) := by
  refine ⟨rfl, setup_fits (m := ⟨0x80, 0x0, 0x0, 0x0, 0x0⟩) (p := ⟨0x0, 0x0, 0x0, 0x0, 0x0⟩) rfl rfl ?_⟩
  simp only [dir_out]
  simp

theorem scsiInvalidCbw (outLen : BitVec 32) (signature : BitVec 32) (opcode : BitVec 8) : Statement (.scsiInvalidCbw outLen signature opcode) := ⟨rfl, BitVec.and_zero⟩

theorem scsiTestUnitReady : Statement .scsiTestUnitReady := ⟨rfl, rfl⟩

theorem scsiInquiry : Statement .scsiInquiry := ⟨rfl, rfl⟩

theorem scsiReadCapacity10 : Statement .scsiReadCapacity10 := ⟨rfl, rfl⟩

theorem scsiUnsupported (opcode : BitVec 8) : Statement (.scsiUnsupported opcode) := ⟨rfl, BitVec.and_zero⟩

theorem busReset : Statement .busReset := ⟨rfl, rfl⟩

theorem ep0TrcptIn : Statement .ep0TrcptIn := ⟨rfl, rfl⟩

theorem ep0TrcptOut : Statement .ep0TrcptOut := ⟨rfl, rfl⟩

theorem ep0Setup : Statement .ep0Setup := ⟨rfl, rfl⟩

theorem ep0StallIn : Statement .ep0StallIn := ⟨rfl, rfl⟩

theorem ep0StallOut : Statement .ep0StallOut := ⟨rfl, rfl⟩

theorem ep1TrcptIn : Statement .ep1TrcptIn := ⟨rfl, rfl⟩

theorem ep1StallIn : Statement .ep1StallIn := ⟨rfl, rfl⟩

theorem ep2TrcptOut : Statement .ep2TrcptOut := ⟨rfl, rfl⟩

theorem ep2StallOut : Statement .ep2StallOut := ⟨rfl, rfl⟩

theorem botExpectingCbwBulkOut : Statement .botExpectingCbwBulkOut := ⟨rfl, rfl⟩

theorem botExpectingCbwBulkInComplete : Statement .botExpectingCbwBulkInComplete := ⟨rfl, rfl⟩

theorem botExpectingCbwStallCleared : Statement .botExpectingCbwStallCleared := ⟨rfl, rfl⟩

theorem botDataInPendingBulkOut : Statement .botDataInPendingBulkOut := ⟨rfl, rfl⟩

theorem botDataInPendingBulkInComplete : Statement .botDataInPendingBulkInComplete := ⟨rfl, rfl⟩

theorem botDataInPendingStallCleared : Statement .botDataInPendingStallCleared := ⟨rfl, rfl⟩

theorem botExpectingDataOutBulkOut : Statement .botExpectingDataOutBulkOut := ⟨rfl, rfl⟩

theorem botExpectingDataOutBulkInComplete : Statement .botExpectingDataOutBulkInComplete := ⟨rfl, rfl⟩

theorem botExpectingDataOutStallCleared : Statement .botExpectingDataOutStallCleared := ⟨rfl, rfl⟩

theorem botCswPendingBulkOut : Statement .botCswPendingBulkOut := ⟨rfl, rfl⟩

theorem botCswPendingBulkInComplete : Statement .botCswPendingBulkInComplete := ⟨rfl, rfl⟩

theorem botCswPendingStallCleared : Statement .botCswPendingStallCleared := ⟨rfl, rfl⟩

theorem botStallPendingBulkOut : Statement .botStallPendingBulkOut := ⟨rfl, rfl⟩

theorem botStallPendingBulkInComplete : Statement .botStallPendingBulkInComplete := ⟨rfl, rfl⟩

theorem botStallPendingStallCleared : Statement .botStallPendingStallCleared := ⟨rfl, rfl⟩

theorem botErrorBulkOut : Statement .botErrorBulkOut := ⟨rfl, rfl⟩

theorem botErrorBulkInComplete : Statement .botErrorBulkInComplete := ⟨rfl, rfl⟩

theorem botErrorStallCleared : Statement .botErrorStallCleared := ⟨rfl, rfl⟩

theorem configure (ep : BitVec 2) (dir : Dir) (ty : EpType) (buf : PacketBuf) (mps : Nat) : Statement (.configure ep dir ty buf mps) := ⟨rfl, by simp only [encode, field, row]; decide⟩

theorem armSend (ep : BitVec 2) (n : Nat) : Statement (.armSend ep n) := ⟨rfl, by simp only [encode, field, row]; decide⟩

theorem bytesReceived (ep : BitVec 2) : Statement (.bytesReceived ep) := ⟨rfl, by simp only [encode, encodeOp, field, row]; decide⟩

theorem release (ep : BitVec 2) : Statement (.release ep) := ⟨rfl, by simp only [encode, encodeOp, field, row]; decide⟩

theorem stall (ep : BitVec 2) (dir : Dir) : Statement (.stall ep dir) := ⟨rfl, by simp only [encode, encodeOp, field, row]; decide⟩

theorem clearStall (ep : BitVec 2) (dir : Dir) : Statement (.clearStall ep dir) := ⟨rfl, by simp only [encode, encodeOp, field, row]; decide⟩

theorem writeAddress (v : BitVec 8) : Statement (.writeAddress v) := ⟨rfl, by simp only [encode, field, row]; decide⟩

end Sys2Proof.Laws.EncodedRow
end

