-- ==== Sys2Proof/Tests/Slice0.lean ====
section
/-! SUPPORT. The model's own tests: ill-formed terms refused, words written out from the spec, the spec's worked examples and derived
vectors, and a witness for the hypotheses of every obligation. Expected values are those of spec/95_test_vectors.md. -/

namespace Sys2Proof.Tests

open Sys2Proof.Machine

-- ## Ill-formed terms

/-- One ill-formed term for each check of WellFormed. -/
theorem test_wf_setup :
    (Instr.classInUnsupported 0xFE 0 1).wf = false ∧ (Instr.getDescriptorDevice 0x21 0 0 18).wf = false ∧
    (Instr.getDescriptorConfiguration 0x21 0 0 32).wf = false ∧ (Instr.getDescriptorUnsupported 0x21 3 0 0 1).wf = false ∧
    (Instr.getDescriptorUnsupported 0 1 0 0 1).wf = false ∧ (Instr.getDescriptorUnsupported 0 2 0 0 1).wf = false ∧
    (Instr.inUnsupported 0x21 0 0 0 1).wf = false ∧ (Instr.inUnsupported 0 6 0x0100 0 1).wf = false ∧
    (Instr.outDefaultAck 0 5 0 0).wf = false ∧ (Instr.outDefaultAck 0 9 0 0).wf = false ∧
    (Instr.outDefaultAck 0 1 0 0x81).wf = false ∧ (Instr.outWithData 0 0 0 0 0).wf = false := by decide

theorem test_wf_other :
    (Instr.scsiInvalidCbw 31 0x43425355 0x12).wf = false ∧ (Instr.scsiUnsupported 0x00).wf = false ∧
    (Instr.scsiUnsupported 0x12).wf = false ∧ (Instr.scsiUnsupported 0x25).wf = false ∧
    (Instr.configure 1 .out .bulk .ep1InBuf 64).wf = false ∧ (Instr.configure 1 .inn .bulk .ep1InBuf (2 ^ 32)).wf = false ∧
    (Instr.armSend 2 0).wf = false ∧ (Instr.armSend 1 (2 ^ 32)).wf = false ∧ (Instr.bytesReceived 1).wf = false ∧
    (Instr.release 1).wf = false ∧ (Instr.stall 3 .out).wf = false ∧ (Instr.clearStall 2 .inn).wf = false := by decide

-- ## Decoding

/-- 95_test_vectors.md V30.1 to V30.9: SETUP bytes, laid out as a 64-bit word (30_encoding.md R51). -/
theorem test_decode_setup_a :
    decode (.setup 0x000100000000FEA1) = .ok (.classGetMaxLun 0 1) ∧
    decode (.setup 0x000100010000FEA1) = .ok (.inUnsupported 0x21 0xFE 0 1 1) ∧
    decode (.setup 0x00020000000000A1) = .ok (.classInUnsupported 0 0 2) ∧
    decode (.setup 0x0012000001000680) = .ok (.getDescriptorDevice 0 0 0 18) ∧
    decode (.setup 0x00FF000002050680) = .ok (.getDescriptorConfiguration 0 5 0 255) ∧
    decode (.setup 0x00FF040903000680) = .ok (.getDescriptorUnsupported 0 3 0 0x0409 255) ∧
    decode (.setup 0x00120000010006C0) = .ok (.getDescriptorDevice 0x40 0 0 18) ∧
    decode (.setup 0x0002000000000080) = .ok (.inUnsupported 0 0 0 0 2) ∧
    decode (.setup 0x0000000000050500) = .ok (.setAddress 0 5 0) := by decide

/-- 95_test_vectors.md V30.10 to V30.17. -/
theorem test_decode_setup_b :
    decode (.setup 0x0001000000050500) = .ok (.outWithData 0 5 5 0 1) ∧
    decode (.setup 0x0000000000010900) = .ok (.setConfiguration 0 1 0) ∧
    decode (.setup 0x0000008100000102) = .ok (.clearFeatureEp81 2 0) ∧
    decode (.setup 0x0000008100000100) = .ok (.clearFeatureEp81 0 0) ∧
    decode (.setup 0x0000008200000102) = .ok (.outDefaultAck 2 1 0 0x82) ∧
    decode (.setup 0x000000000000FF21) = .ok (.outDefaultAck 0x21 0xFF 0 0) ∧
    decode (.setup 0x0000000000010300) = .ok (.outDefaultAck 0 3 1 0) ∧
    decode (.setup 0x0008000000000021) = .ok (.outWithData 0x21 0 0 0 8) := by decide

/-- The bytes of V30.5 as the engine latches them (42_control_engine.md R84). -/
theorem test_setup_bytes :
    SetupRequest.ofBytes [0x80, 0x06, 0x05, 0x02, 0x00, 0x00, 0xFF, 0x00] = ⟨0x80, 6, 0x0205, 0, 255⟩ ∧
    SetupRequest.ofWord 0x00FF000002050680 = ⟨0x80, 6, 0x0205, 0, 255⟩ := by decide

/-- 95_test_vectors.md V30.18 to V30.24 under Strict; the last line is V30.22 under None. -/
theorem test_decode_cbw :
    decode (.cbwOp 31 0x43425355 0x00) = .ok .scsiTestUnitReady ∧
    decode (.cbwOp 31 0x43425355 0x12) = .ok .scsiInquiry ∧
    decode (.cbwOp 31 0x43425355 0x25) = .ok .scsiReadCapacity10 ∧
    decode (.cbwOp 31 0x43425355 0x03) = .ok (.scsiUnsupported 0x03) ∧
    decode (.cbwOp 30 0x43425355 0x00) = .ok (.scsiInvalidCbw 30 0x43425355 0x00) ∧
    decode (.cbwOp 32 0x43425355 0x12) = .ok (.scsiInvalidCbw 32 0x43425355 0x12) ∧
    decode (.cbwOp 31 0x43425356 0x12) = .ok (.scsiInvalidCbw 31 0x43425356 0x12) ∧
    decodeCbw .off 30 0x43425355 0x00 = .scsiTestUnitReady := by decide

/-- 30_encoding.md R55, R63: the ten event codes, and a reserved one. -/
theorem test_decode_event :
    decode (.event 0b0000) = .ok .busReset ∧
    decode (.event 0b0001) = .ok .ep0TrcptIn ∧
    decode (.event 0b0010) = .ok .ep0TrcptOut ∧
    decode (.event 0b0011) = .ok .ep0Setup ∧
    decode (.event 0b0100) = .ok .ep0StallIn ∧
    decode (.event 0b0101) = .ok .ep0StallOut ∧
    decode (.event 0b0110) = .ok .ep1TrcptIn ∧
    decode (.event 0b0111) = .ok .ep1StallIn ∧
    decode (.event 0b1000) = .ok .ep2TrcptOut ∧
    decode (.event 0b1001) = .ok .ep2StallOut ∧
    decode (.event 0b1010) = .error (.reservedEvent 10) := by decide

/-- 30_encoding.md R56: the eighteen cell words, bot_state in bits 4:2 and the event in bits 1:0; R63: reserved words. -/
theorem test_decode_cell :
    decode (.botCell 0b00000) = .ok .botExpectingCbwBulkOut ∧
    decode (.botCell 0b00001) = .ok .botExpectingCbwBulkInComplete ∧
    decode (.botCell 0b00010) = .ok .botExpectingCbwStallCleared ∧
    decode (.botCell 0b00100) = .ok .botDataInPendingBulkOut ∧
    decode (.botCell 0b00101) = .ok .botDataInPendingBulkInComplete ∧
    decode (.botCell 0b00110) = .ok .botDataInPendingStallCleared ∧
    decode (.botCell 0b01000) = .ok .botExpectingDataOutBulkOut ∧
    decode (.botCell 0b01001) = .ok .botExpectingDataOutBulkInComplete ∧
    decode (.botCell 0b01010) = .ok .botExpectingDataOutStallCleared ∧
    decode (.botCell 0b01100) = .ok .botCswPendingBulkOut ∧
    decode (.botCell 0b01101) = .ok .botCswPendingBulkInComplete ∧
    decode (.botCell 0b01110) = .ok .botCswPendingStallCleared ∧
    decode (.botCell 0b10000) = .ok .botStallPendingBulkOut ∧
    decode (.botCell 0b10001) = .ok .botStallPendingBulkInComplete ∧
    decode (.botCell 0b10010) = .ok .botStallPendingStallCleared ∧
    decode (.botCell 0b10100) = .ok .botErrorBulkOut ∧
    decode (.botCell 0b10101) = .ok .botErrorBulkInComplete ∧
    decode (.botCell 0b10110) = .ok .botErrorStallCleared ∧
    decode (.botCell 0b00011) = .error (.reservedCell 3) ∧
    decode (.botCell 0b11000) = .error (.reservedCell 24) := by decide

/-- 30_encoding.md R57: the operation codes, with their arguments (the argument fields are the model's, log 7). -/
theorem test_decode_op :
    decode (.op 0 1 1 2 2 64 0) = .ok (.configure 1 .inn .bulk .ep1InBuf 64) ∧
    decode (.op 1 1 0 0 0 13 0) = .ok (.armSend 1 13) ∧
    decode (.op 2 2 0 0 0 0 0) = .ok (.bytesReceived 2) ∧
    decode (.op 3 2 0 0 0 0 0) = .ok (.release 2) ∧
    decode (.op 4 1 1 0 0 0 0) = .ok (.stall 1 .inn) ∧
    decode (.op 5 0 0 0 0 0 0) = .ok (.clearStall 0 .out) ∧
    decode (.op 6 0 0 0 0 0 0x85) = .ok (.writeAddress 0x85) ∧
    decode (.op 7 0 0 0 0 0 0) = .error (.reservedOp 7) ∧
    decode (.op 0 0 0 1 0 0 0) = .error (.reservedType 1) ∧
    decode (.op 1 2 0 0 0 0 0) = .error (.noBank 2) := by decide

-- ## Small states and one step

/-- Whether an outcome is a next state with a property. -/
def next? (o : Host.Outcome State Fault Refusal) (f : State → Bool) : Bool :=
  match o with
  | .next t => f t
  | .fault _ => false
  | .refused _ => false

/-- The fault of an outcome. -/
def fault? (o : Host.Outcome State Fault Refusal) : Option Fault :=
  match o with
  | .next _ => none
  | .fault r => some r
  | .refused _ => none

/-- The refusal of an outcome. -/
def refused? (o : Host.Outcome State Fault Refusal) : Option Refusal :=
  match o with
  | .next _ => none
  | .fault _ => none
  | .refused r => some r

/-- S_cfg, the state after the enumeration of program P1 (95_test_vectors.md section 3), with empty buffers. -/
def cfg : State :=
  { State.reset with
    setup := ⟨0x00, 0x09, 0x0001, 0x0000, 0x0000⟩
    addrPending := 5
    devAddr := 0x85
    banks := ⟨{ BankDesc.resetEp0 .ep0OutBuf true with byteCount := 8 }, .resetEp0 .ep0InBuf false,
      .configuredAs .bulk .ep1InBuf 64, { BankDesc.configuredAs .bulk .ep2OutBuf 64 with ready := true }⟩ }

/-- `cfg` with a SETUP received. -/
def withSetup (p : List Byte) : State := setupTaken (cfg.writeBytes .ep0OutBuf 0 p)

/-- `cfg` with a bulk-OUT packet received. -/
def withPacket (p : List Byte) : State :=
  let t := cfg.writeBytes .ep2OutBuf 0 p
  t.setBank .ep2Out { t.bank .ep2Out with byteCount := BitVec.ofNat 32 p.length, ready := false }

/-- `cfg` in a BOT state, with the CBW tag, residue and status of V43.20. -/
def inBot (b : BotState) : State :=
  { cfg with botState := b, remaining := 0x12345678, csw := ⟨0, 0, 1⟩, cbw := { Cbw.zero with tag := 0xFFFFFFFF } }

/-- The operations an event has emitted. -/
def ops (s : State) : List BankOp := s.out.ops

/-- The three operations every SETUP event emits first. -/
def pre : List BankOp := [.clearStall .ep0Out, .clearStall .ep0In, .release .ep0]

/-- 95_test_vectors.md V40.1. -/
theorem test_configure :
    next? (exec (.configure 1 .inn .bulk .ep1InBuf 64) State.reset) (fun t =>
      (t.bank .ep1In).configured && (t.bank .ep1In).epType == .bulk && (t.bank .ep1In).maxPacketSize == 64 &&
      (t.bank .ep1In).byteCount == 0 && !(t.bank .ep1In).ready && !(t.bank .ep1In).stall) := by decide

/-- 95_test_vectors.md V40.4, V40.5. -/
theorem test_armSend :
    next? (exec (.armSend 1 64) cfg) (fun t => (t.bank .ep1In).byteCount == 64 && (t.bank .ep1In).ready) ∧
    fault? (exec (.armSend 1 65) cfg) = some .armOverflow := by decide

/-- 95_test_vectors.md V40.6. -/
theorem test_bytesReceived_release :
    next? (exec (.bytesReceived 2) (withPacket (List.replicate 31 0))) (fun t => t.out.received == some 31) ∧
    next? (exec (.release 2) (withPacket (List.replicate 31 0))) (fun t =>
      (t.bank .ep2Out).ready && (t.bank .ep2Out).byteCount == 31) := by decide

/-- 95_test_vectors.md V40.7. -/
theorem test_stall_clearStall :
    next? (exec (.armSend 1 3) cfg) (fun u => next? (exec (.stall 1 .inn) u) fun v =>
      (v.bank .ep1In).stall && (v.bank .ep1In).ready && next? (exec (.clearStall 1 .inn) v) fun t =>
        !(t.bank .ep1In).stall && (t.bank .ep1In).ready) := by decide

/-- 95_test_vectors.md V40.8. -/
theorem test_writeAddress : next? (exec (.writeAddress 0x85) State.reset) (fun t => t.devAddr == 0x85) := by decide

/-- 95_test_vectors.md V40.9, V40.11: NONE and NAK. -/
theorem test_hostOut_turned_away :
    next? (hostStep (.out 2 [1]) State.reset) (fun t => t.out.result == some .noHandshake && t.flags == Flags.none) ∧
    next? (hostStep (.out 2 [1]) (withPacket [2])) (fun t => t.out.result == some .nak && t.byteAt .ep2OutBuf 0 == 2) := by
  decide

/-- 95_test_vectors.md V40.10: STALL. -/
theorem test_hostOut_stalled :
    next? (hostStep (.out 2 [1]) (setStall .ep2Out true cfg)) (fun t =>
      t.out.result == some .stall && t.flags == { Flags.none with ep2StallOut := true }) := by decide

/-- 95_test_vectors.md V40.12. -/
theorem test_hostIn :
    next? (exec (.armSend 1 3) (cfg.writeBytes .ep1InBuf 0 [0xAA, 0xBB, 0xCC])) (fun u => next? (hostStep (.inn 1) u) fun t =>
      t.out.result == some (.data [0xAA, 0xBB, 0xCC]) && !(t.bank .ep1In).ready && t.flags.ep1TrcptIn) := by decide

/-- 95_test_vectors.md V40.13, V40.15. -/
theorem test_hostSetup :
    next? (exec (.armSend 0 1) cfg) (fun u => next? (hostStep (.setup [0x80, 6, 0, 1, 0, 0, 18, 0]) u) fun t =>
      t.out.result == some .ack && !(t.bank .ep0In).ready && t.flags.ep0Setup && t.byteAt .ep0OutBuf 6 == 18) ∧
    next? (hostStep .reset cfg) (fun u => next? (hostStep (.setup [0x80, 6, 0, 1, 0, 0, 18, 0]) u) fun t =>
      t.out.result == some .noHandshake && !t.flags.ep0Setup) := by decide

/-- 95_test_vectors.md V40.14. -/
theorem test_hostReset :
    next? (hostStep .reset cfg) (fun t => t.flags == { Flags.none with busReset := true } && t.devAddr == 0 &&
      !(t.bank .ep2Out).configured && !(t.bank .ep2Out).ready && (t.bank .ep0Out).byteCount == 0) := by decide

/-- The reference instances of R82 and the table of R79, R81 (95_test_vectors.md DEV and CFG). -/
theorem test_descriptors :
    deviceDescriptorOf refDeviceByte =
      [0x12, 0x01, 0x00, 0x02, 0x00, 0x00, 0x00, 0x40, 0x09, 0x12, 0x01, 0x00, 0x00, 0x01, 0x00, 0x00, 0x00, 0x01] ∧
    configDescriptorOf refConfigByte =
      [0x09, 0x02, 0x20, 0x00, 0x01, 0x01, 0x00, 0x80, 0x32, 0x09, 0x04, 0x00, 0x00, 0x02, 0x08, 0x06, 0x50, 0x00] ++
      [0x07, 0x05, 0x81, 0x02, 0x40, 0x00, 0x00, 0x07, 0x05, 0x02, 0x02, 0x40, 0x00, 0x00] := by decide

/-- The reference instance of R125 (95_test_vectors.md INQ) and READCAP_DATA (X10). -/
theorem test_responses :
    inquiryDataOf (fun i => refInquiryData.getD i 0) = refInquiryData ∧ refInquiryData.length = 36 ∧
    readcapData = [0x00, 0x00, 0x07, 0xFF, 0x00, 0x00, 0x02, 0x00] := by decide

/-- 95_test_vectors.md V42.1 to V42.3: GET_DESCRIPTOR. -/
theorem test_getDescriptor :
    next? (exec .ep0Setup (withSetup [0x80, 6, 0, 1, 0, 0, 64, 0])) (fun t =>
      ops t == pre ++ [.armSend .ep0 18] && t.ep0State == .dataStageIn && t.byteAt .ep0InBuf 7 == 0x40) ∧
    next? (exec .ep0Setup (withSetup [0x80, 6, 0, 2, 0, 0, 9, 0])) (fun t =>
      ops t == pre ++ [.armSend .ep0 9] && t.byteAt .ep0InBuf 2 == 32) := by decide

/-- 95_test_vectors.md V42.4, V42.5, V42.16: unsupported requests. -/
theorem test_unsupportedRequest :
    (∀ p ∈ ([[0x80, 6, 0, 3, 0, 0, 255, 0], [0x80, 0, 0, 0, 0, 0, 2, 0], [0x21, 0, 0, 0, 0, 0, 8, 0]] : List (List Byte)),
      next? (exec .ep0Setup (withSetup p)) (fun t =>
        ops t == pre ++ [.stall .ep0Out, .stall .ep0In] && t.ep0State == .expectSetup && (t.bank .ep0In).stall)) := by decide

/-- 95_test_vectors.md V42.6, V42.7: GET_MAX_LUN. -/
theorem test_getMaxLun :
    next? (exec .ep0Setup (withSetup [0xA1, 0xFE, 0, 0, 0, 0, 1, 0])) (fun t =>
      ops t == pre ++ [.armSend .ep0 1] && t.byteAt .ep0InBuf 0 == 0) ∧
    next? (exec .ep0Setup (withSetup [0xA1, 0xFE, 0, 0, 0, 0, 0, 0])) (fun t => ops t == pre ++ [.armSend .ep0 0]) := by decide

/-- 95_test_vectors.md V42.8, V42.10: SET_ADDRESS; bit 7 of wValue is dropped. -/
theorem test_setAddress :
    next? (exec .ep0Setup (withSetup [0, 5, 0x85, 0, 0, 0, 0, 0])) (fun t =>
      ops t == pre ++ [.armSend .ep0 0] && t.addrPending == 5 && t.addrPendingValid && t.devAddr == 0x85 &&
      t.ep0State == .noDataStatus) := by decide

/-- 95_test_vectors.md V42.9, V42.11: the STATUS stage writes the address. -/
theorem test_statusStage :
    next? (exec .ep0TrcptIn { State.reset with ep0State := .noDataStatus, addrPendingValid := true, addrPending := 5 })
      (fun t => ops t == [.writeAddress 0x85] && t.devAddr == 0x85 && !t.addrPendingValid && t.ep0State == .expectSetup) ∧
    next? (exec .ep0TrcptIn { State.reset with ep0State := .noDataStatus, addrPendingValid := true, addrPending := 0 })
      (fun t => t.devAddr == 0x80) := by decide

/-- 95_test_vectors.md V42.13: SET_CONFIGURATION(0). -/
theorem test_setConfiguration :
    next? (exec .ep0Setup (withSetup [0, 9, 0, 0, 0, 0, 0, 0])) (fun t =>
      ops t == pre ++ [.configure .ep1In .bulk .ep1InBuf 64, .configure .ep2Out .bulk .ep2OutBuf 64, .release .ep2,
        .armSend .ep0 0] && t.ep0State == .noDataStatus) := by decide

/-- CLEAR_FEATURE received after the failed command of program P3. -/
def failedCommand : State :=
  { withSetup clearHaltInBytes with
    botState := .stallPending
    remaining := 512
    csw := ⟨0, 0, 1⟩
    cbw := { Cbw.zero with tag := 5 } }

/-- 95_test_vectors.md V42.14 and program P3 step 6: CLEAR_FEATURE on endpoint 0x81. -/
theorem test_clearFeature :
    next? (exec .ep0Setup (withSetup clearHaltInBytes)) (fun t => ops t == pre ++ [.clearStall .ep1In, .armSend .ep0 0]) ∧
    next? (exec .ep0Setup failedCommand) (fun t =>
      ops t == pre ++ [.clearStall .ep1In, .armSend .ep1 13, .armSend .ep0 0] && t.botState == .cswPending &&
      t.bytesFrom .ep1InBuf 0 13 == [0x55, 0x53, 0x42, 0x53, 5, 0, 0, 0, 0, 2, 0, 0, 1]) := by decide

/-- 95_test_vectors.md V42.15: the mass-storage reset is only acknowledged. -/
theorem test_mscReset :
    next? (exec .ep0Setup { withSetup [0x21, 0xFF, 0, 0, 0, 0, 0, 0] with botState := .error }) (fun t =>
      ops t == pre ++ [.armSend .ep0 0] && t.botState == .error) := by decide

/-- 95_test_vectors.md V42.19: the STATUS OUT packet is absorbed. -/
theorem test_statusOut : next? (exec .ep0TrcptOut cfg) (fun t => ops t == [.release .ep0]) := by decide

/-- 95_test_vectors.md V43.2 to V43.18: the outcome and next state of every cell but the CBW path. -/
theorem test_cells :
    let cell (b : BotState) (ev : BotEvent) (o : BotOutcome) (c : BotState) : Bool :=
      match handle ev (inBot b) with
      | .next (t, p) => p == o && t.botState == c
      | .fault _ => false
      | .refused _ => false
    cell .expectingCbw .bulkInComplete .noData .error ∧ cell .expectingCbw .stallCleared .noData .expectingCbw ∧
    cell .dataInPending .bulkOut .noData .error ∧ cell .dataInPending .bulkInComplete (.send 13) .cswPending ∧
    cell .dataInPending .stallCleared .noData .dataInPending ∧ cell .expectingDataOut .bulkOut (.send 13) .cswPending ∧
    cell .expectingDataOut .bulkInComplete .noData .error ∧
    cell .expectingDataOut .stallCleared .noData .expectingDataOut ∧ cell .cswPending .bulkOut .noData .error ∧
    cell .cswPending .bulkInComplete .noData .expectingCbw ∧ cell .cswPending .stallCleared .noData .cswPending ∧
    cell .stallPending .bulkOut .noData .error ∧ cell .stallPending .bulkInComplete .noData .error ∧
    cell .stallPending .stallCleared (.send 13) .cswPending ∧ cell .error .bulkOut .noData .error ∧
    cell .error .bulkInComplete .noData .error ∧ cell .error .stallCleared .noData .error := by decide

/-- 95_test_vectors.md V43.19, V43.20: the CSW bytes. -/
theorem test_csw :
    Csw.bytes ⟨0x11223344, 0, 0⟩ = [0x55, 0x53, 0x42, 0x53, 0x44, 0x33, 0x22, 0x11, 0, 0, 0, 0, 0] ∧
    next? (exec .botDataInPendingBulkInComplete (inBot .dataInPending)) (fun t =>
      t.bytesFrom .ep1InBuf 0 13 == [0x55, 0x53, 0x42, 0x53, 0xFF, 0xFF, 0xFF, 0xFF, 0x78, 0x56, 0x34, 0x12, 1]) := by decide

/-- A CBW from its tag, length and operation code. -/
def cbwOf (tag len : BitVec 32) (opcode : Byte) : List Byte := cbwBytes tag len 0x80 6 [opcode]

/-- 95_test_vectors.md program P2: the bytes of its CBW. -/
theorem test_cbwBytes :
    cbwBytes 0x11223344 36 0x80 6 [0x12, 0, 0, 0, 36] =
      [0x55, 0x53, 0x42, 0x43, 0x44, 0x33, 0x22, 0x11, 0x24, 0x00, 0x00, 0x00, 0x80, 0x00, 0x06] ++
      [0x12, 0x00, 0x00, 0x00, 0x24, 0x00, 0x00, 0x00, 0x00, 0x00, 0x00, 0x00, 0x00, 0x00, 0x00, 0x00] := by decide

/-- 95_test_vectors.md V44.2: TEST UNIT READY with a length of 512. -/
theorem test_testUnitReady :
    next? (exec .ep2TrcptOut { withPacket (cbwOf 1 512 0x00) with csw := ⟨9, 9, 1⟩ }) (fun t =>
      ops t == [.armSend .ep1 13, .release .ep2] && t.botState == .cswPending && t.remaining == 512 &&
      t.bytesFrom .ep1InBuf 0 13 == [0x55, 0x53, 0x42, 0x53, 1, 0, 0, 0, 0, 2, 0, 0, 0]) := by decide

/-- 95_test_vectors.md V44.5, V44.7: INQUIRY. -/
theorem test_inquiry :
    next? (exec .ep2TrcptOut (withPacket (cbwOf 1 64 0x12))) (fun t =>
      ops t == [.armSend .ep1 36, .release .ep2] && t.botState == .dataInPending && t.remaining == 28) ∧
    next? (exec .ep2TrcptOut (withPacket (cbwOf 1 0xFFFFFFFF 0x12))) (fun t => t.remaining == 0xFFFFFFDB) := by decide

/-- 95_test_vectors.md V44.9, V44.11: READ CAPACITY (10). -/
theorem test_readCapacity :
    next? (exec .ep2TrcptOut (withPacket (cbwOf 1 4 0x25))) (fun t =>
      ops t == [.armSend .ep1 4, .release .ep2] && t.bytesFrom .ep1InBuf 0 4 == [0x00, 0x00, 0x07, 0xFF]) ∧
    next? (exec .ep2TrcptOut (withPacket (cbwOf 1 512 0x25))) (fun t =>
      ops t == [.armSend .ep1 8, .release .ep2] && t.remaining == 504 &&
      t.bytesFrom .ep1InBuf 0 8 == [0x00, 0x00, 0x07, 0xFF, 0x00, 0x00, 0x02, 0x00]) := by decide

/-- 95_test_vectors.md V44.12, V44.14: unsupported commands. -/
theorem test_unsupportedCommand :
    next? (exec .ep2TrcptOut (withPacket (cbwOf 5 512 0x28))) (fun t =>
      ops t == [.stall .ep1In, .release .ep2] && t.botState == .stallPending && t.remaining == 512 && t.csw.status == 1) ∧
    next? (exec .ep2TrcptOut (withPacket (cbwOf 5 512 0x2A))) (fun t => t.botState == .stallPending) := by decide

/-- 95_test_vectors.md V44.16, V44.17: malformed CBWs. -/
theorem test_malformedCbw :
    next? (exec .ep2TrcptOut (withPacket ((cbwOf 1 0 0x00).take 30))) (fun t =>
      ops t == [.stall .ep1In, .release .ep2] && t.botState == .error && t.cbw == Cbw.zero) ∧
    next? (exec .ep2TrcptOut (withPacket ([0x55, 0x53, 0x42, 0x44] ++ List.replicate 27 0))) (fun t =>
      t.botState == .error && (t.bank .ep1In).stall && (t.bank .ep2Out).ready) := by decide

/-- 95_test_vectors.md program P5 steps 4 and 6: a sequence violation releases bulk OUT; in Error nothing is sent. -/
theorem test_sequenceViolation :
    next? (exec .ep2TrcptOut (inBot .cswPending)) (fun t => ops t == [.release .ep2] && t.botState == .error) ∧
    next? (exec .ep1TrcptIn (inBot .error)) (fun t => ops t == [] && t.botState == .error) := by decide

/-- 95_test_vectors.md V60.1 to V60.5: priority. -/
theorem test_priority :
    Flags.next { Flags.none with ep0TrcptIn := true, ep0Setup := true } = some .ep0TrcptIn ∧
    Flags.next { Flags.none with ep0Setup := true, ep1TrcptIn := true, ep2TrcptOut := true } = some .ep0Setup ∧
    Flags.next { Flags.none with ep1TrcptIn := true, ep2TrcptOut := true } = some .ep1TrcptIn ∧
    Flags.next Flags.none = none := by decide

/-- 95_test_vectors.md V70.1, V70.2: a bus reset taken. -/
theorem test_busReset :
    next? (exec .busReset { inBot .error with ep0State := .noDataStatus, addrPendingValid := true }) (fun t =>
      ops t == [.configure .ep0Out .control .ep0OutBuf 64, .configure .ep0In .control .ep0InBuf 64, .release .ep0] &&
      t.botState == .expectingCbw && t.ep0State == .expectSetup && !t.addrPendingValid && t.cbw == Cbw.zero &&
      t.remaining == 0) := by decide

/-- 42_control_engine.md R90, R91, 43_bot_engine.md R117, R118: the STALL-sent events emit nothing. -/
theorem test_stallSent :
    ∀ i ∈ [Instr.ep0StallIn, .ep0StallOut, .ep1StallIn, .ep2StallOut], next? (exec i cfg) (fun t => t.script == [] && ops t == [])
  := by decide

/-- 60_exceptions.md R130: a step takes the pending event, clears its flag and uses up the engine line. -/
theorem test_step :
    next? (step { cfg with flags := { Flags.none with ep0TrcptOut := true }, script := [.engine] }) (fun t =>
      ops t == [.release .ep0] && t.flags == Flags.none && t.script == []) := by decide

/-- Operations that name no bank are refused by name (log 12), as are the host steps R77 forbids (log 5). -/
theorem test_refusals :
    refused? (exec (.stall 3 .out) cfg) = some .noSuchBank ∧ refused? (exec (.armSend 2 0) cfg) = some .noSuchBank ∧
    refused? (hostStep (.out 2 (List.replicate 65 0)) cfg) = some .noHostMove := by decide

/-- A table word placed for the next step (log 3): GET_DESCRIPTOR_DEVICE of V30.4, an event code and a BOT cell. -/
theorem test_withFetchWord :
    next? (step (State.reset.withFetchWord 64 0x0012000001000680)) (fun t => ops t == pre ++ [.armSend .ep0 18]) ∧
    decodeTableWord 64 0x0012000001000680 = some (.getDescriptorDevice 0 0 0 18) ∧
    next? (step (State.reset.withFetchWord 8 0x2)) (fun t => ops t == [.release .ep0]) ∧
    next? (step (State.reset.withFetchWord 8 0x10)) (fun t => t.botState == .error) := by decide

-- ## Witnesses: a concrete state and operands that meet each obligation's hypotheses, for each of its clauses

theorem witness_ConfigureSetsUpItsBank :
    bankOf 0 .out = some .ep0Out ∧ bankOf 0 .inn = some .ep0In ∧ bankOf 1 .inn = some .ep1In ∧ bankOf 2 .out = some .ep2Out ∧
    0 ≤ 64 ∧ 64 ≤ 64 := by decide

theorem witness_ConfigureFaultsOnForeignBufferOrSize :
    (bankOf 1 .inn = some .ep1In ∧ PacketBuf.ep0InBuf ≠ ownBuffer .ep1In) ∧
    (bankOf 1 .inn = some .ep1In ∧ PacketBuf.ep1InBuf = ownBuffer .ep1In ∧ 64 < 65) := by decide

theorem witness_ArmSendStagesOrOverflows : inEpOf 0 = some .ep0 ∧ inEpOf 1 = some .ep1 ∧ 64 ≤ 64 ∧ 64 < 65 := by decide

theorem witness_BytesReceivedReadsTheCount : outEpOf 0 = some .ep0 ∧ outEpOf 2 = some .ep2 := by decide

theorem witness_ReleaseMakesTheBankReady :
    outEpOf 2 = some .ep2 ∧ (cfg.bank (outBank .ep2)).ready = true ∧ outEpOf 0 = some .ep0 := by decide

theorem witness_StallSetsTheStall : bankOf 1 .inn = some .ep1In ∧ ((setStall .ep1In true cfg).bank .ep1In).stall = true := by
  decide

theorem witness_ClearStallClearsTheStall : bankOf 1 .inn = some .ep1In ∧ (cfg.bank .ep1In).stall = false := by decide

theorem witness_UnnamedBankIsRefused :
    bankOf 1 .out = none ∧ bankOf 2 .inn = none ∧ bankOf 3 .inn = none ∧ inEpOf 2 = none ∧ outEpOf 1 = none := by decide

theorem witness_GetDescriptorStagesThePrefixOrStalls : (0 : BitVec 8) ≠ 1 ∧ (3 : BitVec 8) ≠ 1 ∧ (3 : BitVec 8) ≠ 2 := by decide

theorem witness_ClearFeatureRegeneratesTheFailedCsw :
    failedCommand.botState = .stallPending ∧ BotNamed cfg ∧ cfg.botState ≠ .stallPending :=
  ⟨rfl, ⟨by decide, by decide⟩, by decide⟩

theorem witness_SetupTakesExactlyOneTerminalAction : BotNamed (withSetup clearHaltInBytes) := ⟨by decide, by decide⟩

theorem witness_DataStageCompletionEndsTheTransaction : { cfg with ep0State := .dataStageIn }.ep0State = .dataStageIn := rfl

/-- The state of 95_test_vectors.md program P6 after its step 3, with the engine to move. -/
def addressed : State :=
  { cfg with
    ep0State := .noDataStatus
    addrPending := 9
    addrPendingValid := true
    flags := { Flags.none with ep0TrcptIn := true }
    script := [.engine] }

theorem witness_StatusStageWritesThePendingAddress :
    (addressed.ep0State = .noDataStatus ∧ addressed.addrPendingValid = true) ∧
    ({ cfg with ep0State := .noDataStatus }.ep0State = .noDataStatus ∧
      { cfg with ep0State := .noDataStatus }.addrPendingValid = false) := by decide

theorem witness_OtherControlCompletionsAreAbsorbed :
    cfg.ep0State = .expectSetup ∧ { cfg with ep0State := .dataStageOut }.ep0State = .dataStageOut := by decide

theorem witness_BulkEventsApplyTheOutcomeOfTheCell :
    cellInstr cfg.botState .bulkOut = some .botExpectingCbwBulkOut ∧
    cellInstr (inBot .cswPending).botState .bulkInComplete = some .botCswPendingBulkInComplete := by decide

theorem witness_HandleRunsTheCellOfTheState :
    cellInstr failedCommand.botState .stallCleared = some .botStallPendingStallCleared ∧
    (inBot .reserved6).botState = .reserved6 ∧ (inBot .reserved7).botState = .reserved7 := by decide

theorem witness_TestUnitReadyStagesOnlyTheCsw : cfg.csw.status = 0 ∧ cfg.remaining = cfg.cbw.dataTransferLength := by decide

theorem witness_SequenceViolationsEnterError :
    Instr.botExpectingCbwBulkInComplete ∈ [Instr.botExpectingCbwBulkInComplete, .botDataInPendingBulkOut,
      .botExpectingDataOutBulkInComplete, .botCswPendingBulkOut, .botStallPendingBulkOut, .botStallPendingBulkInComplete] := by
  decide

theorem witness_IdleCellsChangeNothing :
    Instr.botErrorStallCleared ∈ [Instr.botExpectingCbwStallCleared, .botDataInPendingStallCleared,
      .botExpectingDataOutStallCleared, .botCswPendingStallCleared, .botErrorBulkOut, .botErrorBulkInComplete,
      .botErrorStallCleared] := by decide

theorem witness_ValidCbwIsAcceptedAndRun :
    ((withPacket (cbwOf 1 0 0x00)).bank .ep2Out).byteCount = 31 ∧
    (receivedCbw (withPacket (cbwOf 1 0 0x00))).signature = 0x43425355 := by decide

theorem witness_MalformedCbwEntersError :
    ((withPacket ((cbwOf 1 0 0x00).take 30)).bank .ep2Out).byteCount ≠ 31 ∧
    (receivedCbw (withPacket ([0x55, 0x53, 0x42, 0x44] ++ List.replicate 27 0))).signature ≠ 0x43425355 := by decide

theorem witness_HandleTouchesOnlyTheBotEngine :
    (∃ t o, handle .bulkInComplete (inBot .dataInPending) = .next (t, o) ∧ o = .send 13) ∧
    (∃ t o, handle .bulkOut (withPacket (cbwOf 1 36 0x12)) = .next (t, o) ∧ o = .send 36) :=
  ⟨⟨_, _, rfl, rfl⟩, ⟨_, _, rfl, rfl⟩⟩

theorem witness_HostSetupIsAlwaysTaken :
    clearHaltInBytes.length = 8 ∧ (cfg.bank .ep0Out).configured = true ∧
    ({ cfg with banks := ⟨cfg.banks.ep0Out.deconfigured, cfg.banks.ep0In, cfg.banks.ep1In, cfg.banks.ep2Out⟩ }.bank
      .ep0Out).configured = false := by decide

theorem witness_HostOutFollowsTheBank :
    (hostOutEp 2 = some .ep2 ∧ (List.replicate 64 (0 : Byte)).length ≤ 64 ∧ (cfg.bank .ep2Out).configured = true ∧
      (cfg.bank .ep2Out).stall = false ∧ (cfg.bank .ep2Out).ready = true) ∧
    (hostOutEp 2 = some .ep2 ∧ (State.reset.bank .ep2Out).configured = false) ∧
    (hostOutEp 0 = some .ep0 ∧ ((setStall .ep0Out true cfg).bank .ep0Out).configured = true ∧
      ((setStall .ep0Out true cfg).bank .ep0Out).stall = true) ∧
    (hostOutEp 2 = some .ep2 ∧ ((withPacket []).bank .ep2Out).configured = true ∧
      ((withPacket []).bank .ep2Out).stall = false ∧ ((withPacket []).bank .ep2Out).ready = false) := by decide

/-- INQUIRY's data staged, and the host about to read it: program P2 after its step 2 (95_test_vectors.md). -/
def staged : State :=
  { cfg with
    botState := .dataInPending
    cbw := { Cbw.zero with tag := 0x11223344, dataTransferLength := 36 }
    banks := ⟨cfg.banks.ep0Out, cfg.banks.ep0In, { cfg.banks.ep1In with byteCount := 36, ready := true }, cfg.banks.ep2Out⟩
    script := [.host (.inn 1), .engine] }

theorem witness_HostInFollowsTheBank :
    (hostInEp 1 = some .ep1 ∧ (staged.bank .ep1In).byteCount.toNat ≤ 64 ∧ (staged.bank .ep1In).configured = true ∧
      (staged.bank .ep1In).stall = false ∧ (staged.bank .ep1In).ready = true) ∧
    (hostInEp 1 = some .ep1 ∧ (State.reset.bank .ep1In).byteCount.toNat ≤ 64 ∧
      (State.reset.bank .ep1In).configured = false) ∧
    (hostInEp 0 = some .ep0 ∧ ((setStall .ep0In true cfg).bank .ep0In).byteCount.toNat ≤ 64 ∧
      ((setStall .ep0In true cfg).bank .ep0In).configured = true ∧ ((setStall .ep0In true cfg).bank .ep0In).stall = true) ∧
    (hostInEp 0 = some .ep0 ∧ (cfg.bank .ep0In).byteCount.toNat ≤ 64 ∧ (cfg.bank .ep0In).configured = true ∧
      (cfg.bank .ep0In).stall = false ∧ (cfg.bank .ep0In).ready = false) := by decide

theorem witness_ForbiddenHostStepsHaveNoMove :
    HostMove.allowed (.setup []) = false ∧ HostMove.allowed (.out 2 (List.replicate 65 0)) = false ∧
    HostMove.allowed (.out 1 []) = false ∧ HostMove.allowed (.inn 2) = false := by decide

theorem witness_DecodeReadsBackEveryEncoding :
    (Instr.getDescriptorUnsupported 0x7F 0xFF 0xFF 0xFFFF 0xFFFF).wf = true ∧ (Instr.scsiInvalidCbw 30 0x43425355 0).wf = true ∧
    (Instr.configure 2 .out .bulk .ep0InBuf 0xFFFFFFFF).wf = true := by decide

theorem witness_EncodeReturnsEveryDecodedWord :
    Raw.format (.setup 0x00FF000002050680) ≠ .op ∧
    decode (.setup 0x00FF000002050680) = .ok (.getDescriptorConfiguration 0 5 0 255) := by decide

theorem witness_StepRunsTheNextMove :
    (addressed.flags.next = some .ep0TrcptIn ∧ addressed.script = .engine :: []) ∧
    ({ addressed with script := [.engineStar] }.flags.next = some .ep0TrcptIn ∧
      { addressed with script := [.engineStar] }.script = .engineStar :: []) ∧
    staged.script = .host (.inn 1) :: [.engine] ∧
    (cfg.flags.next = none ∧ cfg.script = []) := by decide

/-- The banks of `cfg` are consistent. -/
theorem cfg_banks : ∀ b, BankConsistent b (cfg.bank b) ∧ (cfg.bank b).byteCount.toNat ≤ 64 ∧ (cfg.bank b).maxPacketSize ≤ 64 := by
  intro b
  cases b <;> exact ⟨fun _ => ⟨rfl, rfl, rfl, rfl⟩, by decide, by decide⟩

/-- A state in mid-command meets the invariant. -/
theorem staged_inv : Inv staged where
  mem := fun p => by cases p <;> exact ⟨List.Pairwise.nil, fun _ h => nomatch h⟩
  bot := ⟨⟨by decide, by decide⟩, by decide⟩
  ep0 := by decide
  status := by decide
  residue := by decide
  counts := fun b => by cases b <;> decide
  sizes := fun b => by cases b <;> decide
  places := fun b => ⟨ownBuffer b, by cases b <;> rfl⟩
  banks := fun b => by cases b <;> exact fun _ => ⟨rfl, rfl, rfl, rfl⟩
  address := by decide
  pendingAddress := by decide
  ep0Packet := by decide
  ep0Single := by decide
  bulkPacket := by decide
  bulkSingle := by decide
  cswTag := by decide
  failed := by decide
  resetAlone := by intro h; exact absurd h (by decide)
  bulkOut := by decide

/-- A state with a completed STATUS stage meets the invariant. -/
theorem addressed_inv : Inv addressed where
  mem := fun p => by cases p <;> exact ⟨List.Pairwise.nil, fun _ h => nomatch h⟩
  bot := ⟨⟨by decide, by decide⟩, by decide⟩
  ep0 := by decide
  status := by decide
  residue := by decide
  counts := fun b => (cfg_banks b).2.1
  sizes := fun b => (cfg_banks b).2.2
  places := fun b => ⟨ownBuffer b, by cases b <;> rfl⟩
  banks := fun b => (cfg_banks b).1
  address := by decide
  pendingAddress := by decide
  ep0Packet := by decide
  ep0Single := by decide
  bulkPacket := by decide
  bulkSingle := by decide
  cswTag := by decide
  failed := by decide
  resetAlone := by intro h; exact absurd h (by decide)
  bulkOut := by decide

theorem witness_StepKeepsTheInvariant :
    (Inv staged ∧ next? (step staged) (fun t => t.flags.ep1TrcptIn)) ∧
    (Inv addressed ∧ next? (step addressed) (fun t => t.devAddr == 0x89)) :=
  ⟨⟨staged_inv, by decide⟩, ⟨addressed_inv, by decide⟩⟩

theorem witness_NoStepStopsUnderTheInvariant : Inv staged ∧ ScriptAllowed staged :=
  ⟨staged_inv, by unfold ScriptAllowed; decide⟩

theorem witness_NoInstructionRaisesAnEvent : ∃ t, exec .ep0TrcptOut addressed = .next t := ⟨_, rfl⟩

theorem witness_AddressChangesOnlyAfterStatus :
    next? (step addressed) (fun t => t.devAddr != addressed.devAddr) ∧
    next? (step { cfg with script := [.host .reset] }) (fun t => t.devAddr != cfg.devAddr) := by decide

theorem witness_ErrorIsLeftOnlyByBusReset :
    (inBot .error).botState = .error ∧
    next? (step { inBot .error with flags := { Flags.none with ep2TrcptOut := true } }) (fun t => t.botState == .error) ∧
    next? (step { inBot .error with flags := { Flags.none with busReset := true } }) (fun t => t.botState == .expectingCbw) := by
  decide

/-- A bulk-IN packet just taken: program P2 after its step 3 (95_test_vectors.md). -/
def taken : State :=
  { staged with
    banks := ⟨cfg.banks.ep0Out, cfg.banks.ep0In, { cfg.banks.ep1In with byteCount := 36, ready := false }, cfg.banks.ep2Out⟩
    flags := { Flags.none with ep1TrcptIn := true }
    script := [] }

theorem taken_inv : Inv taken where
  mem := fun p => by cases p <;> exact ⟨List.Pairwise.nil, fun _ h => nomatch h⟩
  bot := ⟨⟨by decide, by decide⟩, by decide⟩
  ep0 := by decide
  status := by decide
  residue := by decide
  counts := fun b => by cases b <;> decide
  sizes := fun b => by cases b <;> decide
  places := fun b => ⟨ownBuffer b, by cases b <;> rfl⟩
  banks := fun b => by cases b <;> exact fun _ => ⟨rfl, rfl, rfl, rfl⟩
  address := by decide
  pendingAddress := by decide
  ep0Packet := by decide
  ep0Single := by decide
  bulkPacket := by decide
  bulkSingle := by decide
  cswTag := by decide
  failed := by decide
  resetAlone := by intro h; exact absurd h (by decide)
  bulkOut := by decide

theorem witness_StrayCompletionsAreNeverTaken :
    (Inv addressed ∧ (nextMove addressed).1 = .event .ep0TrcptIn) ∧ (Inv taken ∧ (nextMove taken).1 = .event .ep1TrcptIn) :=
  ⟨⟨addressed_inv, by decide⟩, ⟨taken_inv, by decide⟩⟩

theorem witness_BuffersNeverOverlap :
    PacketBuf.ep0OutBuf ≠ .ep2OutBuf ∧ Inv staged ∧ Bank.ep0In ≠ .ep1In ∧ (staged.bank .ep0In).configured = true ∧
    (staged.bank .ep1In).configured = true := ⟨by decide, staged_inv, by decide, by decide, by decide⟩

end Sys2Proof.Tests
end

section
/-! PROOFS. The placement of the packet buffers: where a configured bank's buffer lies, and that two of them lie apart. -/

namespace Sys2Proof.Machine

/-- A configured bank's address is that of its own buffer (20_memory.md R34). -/
theorem Inv.bufferAddress_eq {s : State} (hs : Inv s) {b : Bank} (hb : (s.bank b).configured = true) :
    (s.bank b).bufferAddress = Config.bufAddr (ownBuffer b) :=
  (hs.banks b hb).left

/-- The regions of two different configured banks do not overlap: different banks own different buffers (92_eei_decisions.md D6). -/
theorem Inv.configured_banks_apart {s : State} (hs : Inv s) {a b : Bank} (hab : a ≠ b)
    (ha : (s.bank a).configured = true) (hb : (s.bank b).configured = true) :
    (s.bank a).bufferAddress + 64 ≤ (s.bank b).bufferAddress ∨
      (s.bank b).bufferAddress + 64 ≤ (s.bank a).bufferAddress := by
  have hown : ownBuffer a ≠ ownBuffer b := mt ownBuffer_inj.mp hab
  rw [hs.bufferAddress_eq ha, hs.bufferAddress_eq hb]
  exact bufAddr_apart hown

/-- Settles O60: the layout's law, the invariant's placement of every bank, and each configured bank's own buffer. -/
theorem buffersNeverOverlap : Obligations.BuffersNeverOverlap :=
  ⟨fun _ _ => bufAddr_apart, fun _ hs => ⟨hs.places, fun _ _ => hs.configured_banks_apart⟩⟩

end Sys2Proof.Machine
end

section
/-! PROOFS. The device-address register: only the operation `WriteAddress` and a host bus reset write it, and the engine emits
that operation only when the STATUS stage of a SET_ADDRESS has completed. -/

namespace Sys2Proof.Machine

-- ## Operations

theorem memWrite_eq_next {s t : State} {b : PacketBuf} {off : Nat} {v : List Byte} (h : memWrite s b off v = .next t) :
    t = s.writeBytes b off v := by
  unfold memWrite at h
  split at h <;> cases h
  rfl

/-- Whether an operation leaves the address register alone: all but `WriteAddress` do. -/
def keepsAddress : BankOp → Bool
  | .writeAddress _ => false
  | _ => true

/-- Only `WriteAddress` writes the address register (40_endpoint_bank.md R66 to R72). -/
theorem emit_devAddr {op : BankOp} {s t : State} (hop : keepsAddress op = true) (h : emit op s = .next t) :
    t.devAddr = s.devAddr := by
  obtain ⟨u, hu, ht⟩ := andThen_eq_next.mp h
  cases ht
  rw [pushOp_devAddr]
  cases op with
  | configure b ty buf mps =>
    simp only [applyOp, configureBank] at hu
    split at hu <;> cases hu
    rfl
  | armSend ep n =>
    simp only [applyOp, armBank] at hu
    split at hu <;> cases hu
    rfl
  | release | stall | clearStall => cases hu; rfl
  | writeAddress v => cases hop

/-- A list of operations without a `WriteAddress` keeps the address register. -/
theorem emitAll_devAddr {ops : List BankOp} {s t : State} (hops : ops.all keepsAddress = true) (h : emitAll ops s = .next t) :
    t.devAddr = s.devAddr := by
  induction ops generalizing s with
  | nil => cases h; rfl
  | cons op ops ih =>
    obtain ⟨hop, hrest⟩ := Bool.and_eq_true_iff.mp hops
    obtain ⟨u, hu, ht⟩ := andThen_eq_next.mp h
    exact (ih hrest ht).trans (emit_devAddr hop hu)

theorem applyOutcome_devAddr {o : BotOutcome} {s t : State} (h : applyOutcome o s = .next t) : t.devAddr = s.devAddr := by
  cases o with
  | send n => exact emit_devAddr rfl h
  | noData => cases h; rfl
  | requestStall => exact emit_devAddr rfl h

-- ## The BOT engine

/-- `t` differs from `s` at most in the BOT registers and the packet buffers: no flag, bank, operation or control register. -/
def BotFrame (s t : State) : Prop :=
  t = { s with botState := t.botState, cbw := t.cbw, csw := t.csw, remaining := t.remaining, bufs := t.bufs }

theorem BotFrame.devAddr {s t : State} (h : BotFrame s t) : t.devAddr = s.devAddr := by
  rw [h]

/-- The rules a cell can run: `handle` answers one of them or faults (43_bot_engine.md R105). -/
theorem handle_cases (ev : BotEvent) (s : State) :
    handle ev s = takeCbw .strict s ∨ handle ev s = stageCsw s ∨ handle ev s = closeCommand s ∨
      handle ev s = answerNoData s ∨ handle ev s = raiseSequenceViolation s ∨ handle ev s = .fault .badBotState := by
  cases hb : s.botState <;> cases ev <;> simp only [handle, hb] <;> tauto

theorem stageCsw_botFrame {s t : State} {o : BotOutcome} (h : stageCsw s = .next (t, o)) : BotFrame s t := by
  rw [stageCsw_eq] at h
  cases h
  rfl

theorem stageData_botFrame {d : List Byte} {s t : State} {o : BotOutcome} (hd : d.length ≤ 64)
    (h : stageData d s = .next (t, o)) : BotFrame s t := by
  rw [stageData_eq d s hd] at h
  cases h
  rfl

theorem runScsi_botFrame {s t : State} {o : BotOutcome} (h : runScsi s = .next (t, o)) : BotFrame s t := by
  unfold runScsi at h
  split at h
  · exact stageCsw_botFrame h
  · exact stageData_botFrame (by simp) h
  · exact stageData_botFrame (by simp) h
  · cases h; rfl

/-- Taking a CBW stays within the BOT registers and the buffers, accepted or not (44_scsi_commands.md R119, R120). -/
theorem takeCbw_botFrame {s t : State} {o : BotOutcome} (h : takeCbw .strict s = .next (t, o)) : BotFrame s t := by
  rw [takeCbw_strict] at h
  split at h
  · exact runScsi_botFrame (s := cbwTaken s) h
  · cases h; rfl

/-- `handle` changes the BOT registers and the packet buffers at most (43_bot_engine.md R104). -/
theorem handle_botFrame {ev : BotEvent} {s t : State} {o : BotOutcome} (h : handle ev s = .next (t, o)) : BotFrame s t := by
  rcases handle_cases ev s with he | he | he | he | he | he <;> rw [he] at h
  · exact takeCbw_botFrame h
  · exact stageCsw_botFrame h
  all_goals cases h
  all_goals rfl

-- ## The requests of the control engine

theorem zlpAck_devAddr {s t : State} (h : zlpAck s = .next t) : t.devAddr = s.devAddr := by
  rw [zlpAck_eq] at h
  cases h
  rfl

theorem inStage_devAddr {v : List Byte} {s t : State} (h : inStage v s = .next t) : t.devAddr = s.devAddr := by
  obtain ⟨u, hu, h⟩ := andThen_eq_next.mp h
  obtain ⟨w, hw, ht⟩ := andThen_eq_next.mp h
  cases memWrite_eq_next hu
  cases ht
  simpa using emit_devAddr rfl hw

theorem raiseUnsupportedRequest_devAddr {s t : State} (h : raiseUnsupportedRequest s = .next t) : t.devAddr = s.devAddr := by
  obtain ⟨u, hu, ht⟩ := andThen_eq_next.mp h
  cases ht
  simpa using emitAll_devAddr rfl hu

theorem getDescriptor_devAddr {d : BitVec 8} {len : BitVec 16} {s t : State} (h : getDescriptor d len s = .next t) :
    t.devAddr = s.devAddr := by
  obtain ⟨r, -, ht⟩ := andThen_eq_next.mp h
  cases r with
  | some v => exact inStage_devAddr ht
  | none => exact raiseUnsupportedRequest_devAddr ht

/-- CLEAR_FEATURE_EP81 keeps the address register (42_control_engine.md R101). -/
theorem execClearFeatureEp81_devAddr {rt : BitVec 7} {value : BitVec 16} {s t : State}
    (h : execClearFeatureEp81 rt value s = .next t) : t.devAddr = s.devAddr := by
  obtain ⟨u, hu, h⟩ := andThen_eq_next.mp h
  obtain ⟨⟨v, o⟩, hv, h⟩ := andThen_eq_next.mp h
  obtain ⟨w, hw, ht⟩ := andThen_eq_next.mp h
  calc t.devAddr = w.devAddr := zlpAck_devAddr ht
    _ = v.devAddr := applyOutcome_devAddr hw
    _ = u.devAddr := (handle_botFrame hv).devAddr
    _ = s.devAddr := emit_devAddr rfl hu

theorem execSetAddress_devAddr {rt : BitVec 7} {value index : BitVec 16} {s t : State}
    (h : execSetAddress rt value index s = .next t) : t.devAddr = s.devAddr := by
  simpa using zlpAck_devAddr h

theorem execSetConfiguration_devAddr {rt : BitVec 7} {value index : BitVec 16} {s t : State}
    (h : execSetConfiguration rt value index s = .next t) : t.devAddr = s.devAddr := by
  obtain ⟨u, hu, ht⟩ := andThen_eq_next.mp h
  exact (zlpAck_devAddr ht).trans (emitAll_devAddr rfl hu)

theorem execClassGetMaxLun_devAddr {value length : BitVec 16} {s t : State}
    (h : execClassGetMaxLun value length s = .next t) : t.devAddr = s.devAddr := by
  obtain ⟨v, -, ht⟩ := andThen_eq_next.mp h
  exact inStage_devAddr ht

/-- No request writes the address register: SET_ADDRESS only records the address as pending (42_control_engine.md R99). -/
theorem runRequest_devAddr {r : SetupRequest} {s t : State} (h : runRequest r s = .next t) : t.devAddr = s.devAddr := by
  unfold runRequest at h
  cases hrow : setupRow r <;> simp only [hrow] at h
  case classGetMaxLun => exact execClassGetMaxLun_devAddr h
  case getDescriptorDevice | getDescriptorConfiguration | getDescriptorUnsupported => exact getDescriptor_devAddr h
  case setAddress => exact execSetAddress_devAddr h
  case setConfiguration => exact execSetConfiguration_devAddr h
  case clearFeatureEp81 => exact execClearFeatureEp81_devAddr h
  case outDefaultAck => exact zlpAck_devAddr h
  case classInUnsupported | inUnsupported | outWithData => exact raiseUnsupportedRequest_devAddr h

-- ## The events

/-- A SETUP event keeps the address register (42_control_engine.md R84). -/
theorem execEp0Setup_devAddr {s t : State} (h : execEp0Setup s = .next t) : t.devAddr = s.devAddr := by
  obtain ⟨p, -, h⟩ := andThen_eq_next.mp h
  obtain ⟨u, hu, ht⟩ := andThen_eq_next.mp h
  calc t.devAddr = u.devAddr := runRequest_devAddr ht
    _ = (latchSetup _ s).devAddr := emitAll_devAddr rfl hu
    _ = s.devAddr := latchSetup_devAddr s _

/-- Taking a bus reset keeps the address register: the host step has zeroed it already (70_reset_and_hazards.md R148). -/
theorem execBusReset_devAddr {s t : State} (h : execBusReset s = .next t) : t.devAddr = s.devAddr := by
  obtain ⟨u, hu, ht⟩ := andThen_eq_next.mp h
  cases ht
  simpa [resetRegisters] using emitAll_devAddr rfl hu

theorem execEp0TrcptOut_devAddr {s t : State} (h : execEp0TrcptOut s = .next t) : t.devAddr = s.devAddr :=
  emit_devAddr rfl h

theorem execEp1TrcptIn_devAddr {s t : State} (h : execEp1TrcptIn s = .next t) : t.devAddr = s.devAddr := by
  obtain ⟨⟨u, o⟩, hu, ht⟩ := andThen_eq_next.mp h
  exact (applyOutcome_devAddr ht).trans (handle_botFrame hu).devAddr

theorem execEp2TrcptOut_devAddr {s t : State} (h : execEp2TrcptOut s = .next t) : t.devAddr = s.devAddr := by
  obtain ⟨⟨u, o⟩, hu, h⟩ := andThen_eq_next.mp h
  obtain ⟨v, hv, ht⟩ := andThen_eq_next.mp h
  calc t.devAddr = v.devAddr := emit_devAddr rfl ht
    _ = u.devAddr := applyOutcome_devAddr hv
    _ = s.devAddr := (handle_botFrame hu).devAddr

/-- Every event but EP0_TRCPT_IN keeps the address register. -/
theorem exec_event_devAddr {e : Event} {s t : State} (he : e ≠ .ep0TrcptIn) (h : exec e.instr s = .next t) :
    t.devAddr = s.devAddr := by
  cases e with
  | busReset => exact execBusReset_devAddr h
  | ep0TrcptIn => exact absurd rfl he
  | ep0TrcptOut => exact execEp0TrcptOut_devAddr h
  | ep0Setup => exact execEp0Setup_devAddr h
  | ep1TrcptIn => exact execEp1TrcptIn_devAddr h
  | ep2TrcptOut => exact execEp2TrcptOut_devAddr h
  | ep0StallIn | ep0StallOut | ep1StallIn | ep2StallOut => cases h; rfl

/-- The value written is bit 1 followed by the seven bits of the pending address (42_control_engine.md R87). -/
theorem enabledAddress_eq (a : BitVec 7) : 0x80 ||| a.setWidth 8 = 1#1 ++ a := by
  revert a; decide

/-- EP0_TRCPT_IN changes the address register only where it completes the STATUS stage with an address pending, and then to that
address (42_control_engine.md R85 to R88). -/
theorem execEp0TrcptIn_devAddr {s t : State} (h : execEp0TrcptIn s = .next t) (hne : t.devAddr ≠ s.devAddr) :
    s.ep0State = .noDataStatus ∧ s.addrPendingValid = true ∧ t.devAddr = 1#1 ++ s.addrPending := by
  unfold execEp0TrcptIn at h
  split at h
  case h_2 hstate =>
    unfold completeStatus at h
    split at h
    case isTrue hvalid =>
      rw [emit_writeAddress] at h
      cases h
      exact ⟨hstate, hvalid, enabledAddress_eq _⟩
    case isFalse => cases h; exact absurd rfl hne
  all_goals cases h
  all_goals exact absurd rfl hne

-- ## The host steps

/-- `t` differs from `s` at most in what a packet on the bus can touch: banks, flags, packet buffers and the output record. -/
def PacketFrame (s t : State) : Prop :=
  t = { s with banks := t.banks, flags := t.flags, bufs := t.bufs, out := t.out }

theorem PacketFrame.devAddr {s t : State} (h : PacketFrame s t) : t.devAddr = s.devAddr := by
  rw [h]

theorem hostSetup_packetFrame {p : List Byte} {s t : State} (h : hostSetup p s = .next t) : PacketFrame s t := by
  unfold hostSetup at h
  split at h
  · cases h
  split at h
  · obtain ⟨u, hu, ht⟩ := andThen_eq_next.mp h
    cases memWrite_eq_next hu
    cases ht
    rfl
  · cases h; rfl

theorem hostOutOn_packetFrame {ep : OutEp} {d : List Byte} {s t : State} (h : hostOutOn ep d s = .next t) :
    PacketFrame s t := by
  simp only [hostOutOn] at h
  split at h
  · cases h; rfl
  split at h
  · cases h; rfl
  split at h
  · cases h; rfl
  · obtain ⟨u, hu, ht⟩ := andThen_eq_next.mp h
    cases memWrite_eq_next hu
    cases ht
    rfl

theorem hostInOn_packetFrame {ep : InEp} {s t : State} (h : hostInOn ep s = .next t) : PacketFrame s t := by
  simp only [hostInOn] at h
  split at h
  · cases h; rfl
  split at h
  · cases h; rfl
  split at h
  · cases h; rfl
  · obtain ⟨d, -, ht⟩ := andThen_eq_next.mp h
    cases ht
    rfl

/-- A host step other than a bus reset changes banks, flags, buffers and the output record at most (40_endpoint_bank.md R73
to R75). -/
theorem hostStep_packetFrame {m : HostMove} {s t : State} (hm : m ≠ .reset) (h : hostStep m s = .next t) : PacketFrame s t := by
  cases m with
  | setup p => exact hostSetup_packetFrame h
  | out k d =>
    simp only [hostStep, hostOut] at h
    split at h
    · split at h
      · cases h
      · exact hostOutOn_packetFrame h
    · cases h
  | inn k =>
    simp only [hostStep, hostIn] at h
    split at h
    · exact hostInOn_packetFrame h
    · cases h
  | reset => exact absurd rfl hm

/-- A host step changes the address register only as a bus reset, to 0 (40_endpoint_bank.md R76). -/
theorem hostStep_devAddr {m : HostMove} {s t : State} (h : hostStep m s = .next t) (hne : t.devAddr ≠ s.devAddr) :
    m = .reset ∧ t.devAddr = 0 := by
  by_cases hm : m = .reset
  · subst hm
    cases h
    exact ⟨rfl, rfl⟩
  · exact absurd (hostStep_packetFrame hm h).devAddr hne

-- ## The step

/-- The next move starts from a state that differs in the script alone. -/
theorem nextMove_frame {s u : State} {m : Move} (h : nextMove s = (m, u)) : u = { s with script := u.script } := by
  rcases nextMove_cases s with ⟨v, hv, hu, -⟩ | ⟨m', v, hv, hu, -⟩ | ⟨e, v, hv, -, hu, -⟩ <;>
    · cases h.symm.trans hv
      exact hu

theorem nextMove_sameControl {s u : State} {m : Move} (h : nextMove s = (m, u)) : SameControl s u := by
  rw [nextMove_frame h]
  exact ⟨rfl, rfl, rfl, rfl, rfl⟩

theorem step_of_idle {s u : State} (h : nextMove s = (.idle, u)) : step s = .next u := by
  simp only [step, h]

theorem step_of_host {s u : State} {m : HostMove} (h : nextMove s = (.host m, u)) : step s = hostStep m u := by
  simp only [step, h]

theorem step_of_event {s u : State} {e : Event} (h : nextMove s = (.event e, u)) :
    step s = exec e.instr (takeEvent e u) := by
  simp only [step, h]

/-- Settles O57, by the kind of the next move: a host step writes the register as a bus reset alone, and an event as EP0_TRCPT_IN
alone, from the registers the move starts with. -/
theorem addressChangesOnlyAfterStatus : Obligations.AddressChangesOnlyAfterStatus := by
  intro s t h hne
  obtain ⟨m, u, hmove⟩ : ∃ m u, nextMove s = (m, u) := ⟨_, _, rfl⟩
  obtain ⟨hstate, -, hvalid, hpending, haddr⟩ := nextMove_sameControl hmove
  rw [← haddr] at hne
  cases m with
  | idle =>
    rw [step_of_idle hmove] at h
    cases h
    exact absurd rfl hne
  | host m =>
    rw [step_of_host hmove] at h
    obtain ⟨rfl, hzero⟩ := hostStep_devAddr h hne
    exact .inr ⟨⟨u, hmove⟩, hzero⟩
  | event e =>
    rw [step_of_event hmove] at h
    rw [← takeEvent_devAddr u e] at hne
    obtain rfl : e = .ep0TrcptIn := by_contra fun he => hne (exec_event_devAddr he h)
    have hwritten := execEp0TrcptIn_devAddr h hne
    exact .inl ⟨⟨u, hmove⟩, by simpa [hstate, hvalid, hpending] using hwritten⟩

end Sys2Proof.Machine
end

section
/-! PROOFS. The SETUP rows of the opcode table: what a row's mask and match say of the five fields, and that the first row to fit
is the one the decoder's conditions select. -/

namespace Sys2Proof.Machine

-- ## A masked word, field by field

/-- A SETUP word fits a mask and a match exactly when each of its fields fits theirs. -/
theorem word_fits_iff (r : SetupRequest) (M P : BitVec 64) :
    r.word &&& M = P ↔
      r.requestType &&& (SetupRequest.ofWord M).requestType = (SetupRequest.ofWord P).requestType ∧
      r.request &&& (SetupRequest.ofWord M).request = (SetupRequest.ofWord P).request ∧
      r.value &&& (SetupRequest.ofWord M).value = (SetupRequest.ofWord P).value ∧
      r.index &&& (SetupRequest.ofWord M).index = (SetupRequest.ofWord P).index ∧
      r.length &&& (SetupRequest.ofWord M).length = (SetupRequest.ofWord P).length := by
  rw [← SetupRequest.mk.injEq, ← word_inj, ← word_and, word_ofWord, word_ofWord]

/-- A mask of all ones leaves a byte field as it is. -/
theorem and_byteMask (x : BitVec 8) : x &&& 0xFF#8 = x := BitVec.and_allOnes

/-- A mask of all ones leaves a 16-bit field as it is. -/
theorem and_wideMask (x : BitVec 16) : x &&& 0xFFFF#16 = x := BitVec.and_allOnes

/-- The direction bit of bmRequestType is set in a device-to-host request (30_encoding.md R52). -/
theorem requestType_and_in (r : SetupRequest) : r.requestType &&& 0x80#8 = 0x80#8 ↔ r.isIn = true := by
  have h : ∀ x : BitVec 8, x &&& 0x80 = 0x80 ↔ x.getLsbD 7 = true := by decide
  exact h r.requestType

/-- The direction bit of bmRequestType is clear in a host-to-device request (30_encoding.md R52). -/
theorem requestType_and_out (r : SetupRequest) : r.requestType &&& 0x80#8 = 0#8 ↔ r.isIn = false := by
  have h : ∀ x : BitVec 8, x &&& 0x80 = 0 ↔ x.getLsbD 7 = false := by decide
  exact h r.requestType

/-- The high byte of wValue is the descriptor type (30_encoding.md R53). -/
theorem value_and_high (v : BitVec 16) (t : BitVec 8) : v &&& 0xFF00 = t ++ 0#8 ↔ descTypeOf v = t := by
  rw [← value_split v, Laws.EncodedRow.high_byte, append_inj, descType_append]
  simp

-- ## The rows

/-- What a row's mask and match say of the fields (30_encoding.md R60): its condition with the direction bit written out, since a row
of the table stands alone and does not lean on the rows before it. -/
def rowFits (r : SetupRequest) : SetupRow → Bool
  | .classGetMaxLun => r.requestType == 0xA1 && r.request == 0xFE && r.index == 0
  | .classInUnsupported => r.requestType == 0xA1 && r.index == 0
  | .getDescriptorDevice => r.isIn && r.request == 6 && descTypeOf r.value == 1
  | .getDescriptorConfiguration => r.isIn && r.request == 6 && descTypeOf r.value == 2
  | .getDescriptorUnsupported => r.isIn && r.request == 6
  | .inUnsupported => r.isIn
  | .setAddress => !r.isIn && r.request == 5 && r.length == 0
  | .setConfiguration => !r.isIn && r.request == 9 && r.length == 0
  | .clearFeatureEp81 => !r.isIn && r.request == 1 && r.index == 0x0081 && r.length == 0
  | .outDefaultAck => !r.isIn && r.length == 0
  | .outWithData => !r.isIn

/-- A row's mask and match fit a word exactly when the row's condition holds of its fields. -/
theorem tableRow_fits {t : TableRow} (ht : t ∈ setupTable) (r : SetupRequest) :
    (r.word &&& t.mask == t.pattern) = rowFits r t.row := by
  have hdevice : r.value &&& 0xFF00#16 = 0x0100#16 ↔ descTypeOf r.value = 1#8 := value_and_high r.value 1
  have hconfiguration : r.value &&& 0xFF00#16 = 0x0200#16 ↔ descTypeOf r.value = 2#8 := value_and_high r.value 2
  rw [Bool.eq_iff_iff, beq_iff_eq, word_fits_iff]
  simp only [setupTable, List.mem_cons, List.not_mem_nil, or_false] at ht
  rcases ht with rfl | rfl | rfl | rfl | rfl | rfl | rfl | rfl | rfl | rfl | rfl <;>
    simp [SetupRequest.ofWord, rowFits, and_byteMask, and_wideMask, requestType_and_in, requestType_and_out, hdevice,
      hconfiguration, and_assoc]

/-- The class-request type 0xA1 is a device-to-host one. -/
theorem isIn_of_classType {r : SetupRequest} (h : r.requestType = 0xA1) : r.isIn = true := by
  rw [SetupRequest.isIn, h]
  rfl

/-- A search takes the head of the list when it passes, and goes on otherwise. -/
theorem find?_cons_eq_ite {α : Type} (p : α → Bool) (a : α) (l : List α) :
    (a :: l).find? p = if p a then some a else l.find? p := by
  cases h : p a <;> simp [h]

/-- The first row whose condition holds is the decoder's, which tries the conditions in the table's order: a device-to-host request
ends at `inUnsupported` at the latest, and a host-to-device one passes every row before `setAddress`, the two class rows included. -/
theorem find?_rowFits (r : SetupRequest) : (setupTable.map TableRow.row).find? (rowFits r) = some (setupRow r) := by
  cases hdir : r.isIn with
  | true => simp [setupTable, find?_cons_eq_ite, rowFits, setupRow, hdir, apply_ite some, and_assoc]
  | false =>
    have hclass : r.requestType ≠ 0xA1#8 := fun h => by simp [isIn_of_classType h] at hdir
    simp [setupTable, find?_cons_eq_ite, rowFits, setupRow, hdir, hclass, apply_ite some, and_assoc]

/-- Settles O48, for the word of any request: each row fits when its condition holds, and the decoder tries the conditions in the
table's order. -/
theorem setupRowsAreTheTablesRows : Obligations.SetupRowsAreTheTablesRows := by
  intro w
  rw [← word_ofWord w, ofWord_word]
  generalize SetupRequest.ofWord w = r
  calc tableRowOf r.word = (setupTable.find? (rowFits r ∘ TableRow.row)).map TableRow.row := by
        rw [tableRowOf, List.find?_congr fun t ht => tableRow_fits ht r]
        rfl
    _ = (setupTable.map TableRow.row).find? (rowFits r) := List.find?_map.symm
    _ = some (setupRow r) := find?_rowFits r

end Sys2Proof.Machine
end

section
/-! PROOFS. The bank operations run on their own: each writes one bank or the address register, appends itself to the output list,
and leaves the rest of the machine alone. -/

namespace Sys2Proof.Machine

-- ## What an operation on one bank leaves unchanged

/-- `t` agrees with `s` but for the one bank and the operation appended to the output list. -/
def OnlyBankChanges (b : Bank) (op : BankOp) (s t : State) : Prop :=
  SameBanksBut [b] s t ∧ SameControl s t ∧ SameBot s t ∧ SameInputs s t ∧ SameBytes s t ∧ Emits [op] s t

theorem setBank_sameBanksBut (s : State) (b : Bank) (d : BankDesc) : SameBanksBut [b] s (s.setBank b d) :=
  fun _ hc => setBank_bank_other s b _ d (List.ne_of_not_mem_cons hc)

/-- Replacing a bank and appending an operation change nothing else. -/
theorem setBank_pushOp_onlyBankChanges (s : State) (b : Bank) (d : BankDesc) (op : BankOp) :
    OnlyBankChanges b op s ((s.setBank b d).pushOp op) :=
  ⟨setBank_sameBanksBut s b d, ⟨rfl, rfl, rfl, rfl, rfl⟩, ⟨rfl, rfl, rfl, rfl⟩, ⟨rfl, rfl⟩, sameBytes_of_bufs rfl, rfl⟩

/-- Writing to `ready` what it holds changes nothing. -/
theorem BankDesc.with_ready_self {d : BankDesc} {v : Bool} (h : d.ready = v) : { d with ready := v } = d := by
  rw [← h]

/-- Writing to `stall` what it holds changes nothing. -/
theorem BankDesc.with_stall_self {d : BankDesc} {v : Bool} (h : d.stall = v) : { d with stall := v } = d := by
  rw [← h]

-- ## The OP rows on the banks they name

section
variable {ep : BitVec 2} {dir : Dir} {b : Bank} (s : State)

theorem exec_configure_of_bankOf (ty : EpType) (buf : PacketBuf) (mps : Nat) (h : bankOf ep dir = some b) :
    exec (.configure ep dir ty buf mps) s = emit (.configure b ty buf mps) s := by
  simp only [exec, execConfigure, h]

theorem exec_armSend_of_inEpOf {e : InEp} (n : Nat) (h : inEpOf ep = some e) :
    exec (.armSend ep n) s = emit (.armSend e n) s := by
  simp only [exec, execArmSend, h]

theorem exec_release_of_outEpOf {e : OutEp} (h : outEpOf ep = some e) : exec (.release ep) s = emit (.release e) s := by
  simp only [exec, execRelease, h]

theorem exec_stall_of_bankOf (h : bankOf ep dir = some b) : exec (.stall ep dir) s = emit (.stall b) s := by
  simp only [exec, execStall, h]

theorem exec_clearStall_of_bankOf (h : bankOf ep dir = some b) : exec (.clearStall ep dir) s = emit (.clearStall b) s := by
  simp only [exec, execClearStall, h]

end

/-- A foreign buffer or a size above 64 faults (40_endpoint_bank.md R66, 60_exceptions.md R139). -/
theorem emit_configure_fault {b : Bank} {buf : PacketBuf} {mps : Nat} (ty : EpType) (s : State)
    (h : buf ≠ ownBuffer b ∨ 64 < mps) : emit (.configure b ty buf mps) s = .fault .badConfigure := by
  have hbad : ¬(buf = ownBuffer b ∧ mps ≤ 64) := fun ⟨hbuf, hmps⟩ => h.elim (· hbuf) hmps.not_gt
  simp only [emit, applyOp, configureBank, if_neg hbad, andThen_fault]

/-- More than 64 bytes fault (40_endpoint_bank.md R67). -/
theorem emit_armSend_fault {n : Nat} (e : InEp) (s : State) (h : 64 < n) : emit (.armSend e n) s = .fault .armOverflow := by
  simp only [emit, applyOp, armBank, if_pos h, andThen_fault]

-- ## The operations

/-- Settles O1: Configure replaces the bank by one set up from its operands. -/
theorem configureSetsUpItsBank : Obligations.ConfigureSetsUpItsBank := by
  intro ep dir ty mps b s hb hmps
  rw [exec_configure_of_bankOf s ty _ mps hb, emit_configure b ty mps s hmps]
  exact ⟨_, rfl, setBank_bank_self s b _, setBank_pushOp_onlyBankChanges s b _ _⟩

/-- Settles O2: each of the two faults is R66's one test failing. -/
theorem configureFaultsOnForeignBufferOrSize : Obligations.ConfigureFaultsOnForeignBufferOrSize := by
  intro ep dir ty buf mps b s hb hbad
  rw [exec_configure_of_bankOf s ty buf mps hb, emit_configure_fault ty s hbad]

/-- Settles O3, on the two sides of the bound of 64 bytes. -/
theorem armSendStagesOrOverflows : Obligations.ArmSendStagesOrOverflows := by
  intro ep e n s he
  rw [exec_armSend_of_inEpOf s n he]
  refine ⟨fun hfits => ?_, emit_armSend_fault e s⟩
  rw [emit_armSend e n s hfits]
  exact ⟨_, rfl, setBank_bank_self s (inBank e) _, setBank_pushOp_onlyBankChanges s (inBank e) _ _⟩

/-- Settles O5: Release writes `ready` alone, which in a released bank is what it holds. -/
theorem releaseMakesTheBankReady : Obligations.ReleaseMakesTheBankReady := by
  intro ep e s he
  rw [exec_release_of_outEpOf s he, emit_release]
  have hbank := setBank_bank_self s (outBank e) { s.bank (outBank e) with ready := true }
  exact ⟨_, rfl, hbank, fun hready => hbank.trans (BankDesc.with_ready_self hready),
    setBank_pushOp_onlyBankChanges s (outBank e) _ _⟩

/-- Settles O6: Stall writes `stall` alone, which in a stalled bank is what it holds. -/
theorem stallSetsTheStall : Obligations.StallSetsTheStall := by
  intro ep dir b s hb
  rw [exec_stall_of_bankOf s hb, emit_stall]
  have hbank := setBank_bank_self s b { s.bank b with stall := true }
  exact ⟨_, rfl, hbank, fun hstall => hbank.trans (BankDesc.with_stall_self hstall), setBank_pushOp_onlyBankChanges s b _ _⟩

/-- Settles O7: ClearStall writes `stall` alone, which in a bank that is not stalled is what it holds. -/
theorem clearStallClearsTheStall : Obligations.ClearStallClearsTheStall := by
  intro ep dir b s hb
  rw [exec_clearStall_of_bankOf s hb, emit_clearStall]
  have hbank := setBank_bank_self s b { s.bank b with stall := false }
  exact ⟨_, rfl, hbank, fun hstall => hbank.trans (BankDesc.with_stall_self hstall), setBank_pushOp_onlyBankChanges s b _ _⟩

/-- Settles O8: WriteAddress has no operand to fail on and writes no bank. -/
theorem writeAddressWritesTheRegister : Obligations.WriteAddressWritesTheRegister := fun v s =>
  ⟨_, emit_writeAddress v s, rfl, rfl, rfl, rfl, rfl, .refl _ s, ⟨rfl, rfl, rfl, rfl⟩, .refl s, .refl s, rfl⟩

end Sys2Proof.Machine
end

section
/-! PROOFS. The host's packets: what a SETUP, an OUT packet and an IN token do, by the configured, stall and ready bits of the bank
they address. -/

namespace Sys2Proof.Machine

-- ## The frame of a packet

theorem PacketFrame.sameControl {s t : State} (h : PacketFrame s t) : SameControl s t := by
  rw [h]; exact ⟨rfl, rfl, rfl, rfl, rfl⟩

theorem PacketFrame.sameBot {s t : State} (h : PacketFrame s t) : SameBot s t := by
  rw [h]; exact ⟨rfl, rfl, rfl, rfl⟩

theorem PacketFrame.script {s t : State} (h : PacketFrame s t) : t.script = s.script := by
  rw [h]

-- ## SETUP

/-- A SETUP to a configured EP0 is stored and acknowledged (40_endpoint_bank.md R73). -/
theorem hostSetup_configured {p : List Byte} {s : State} (hp : p.length = 8) (hc : (s.bank .ep0Out).configured = true) :
    hostSetup p s = .next (withResult .ack (setupTaken (s.writeBytes .ep0OutBuf 0 p))) := by
  simp [hostSetup, hp, hc, memWrite_ok]

/-- A SETUP to an unconfigured EP0 is not answered (40_endpoint_bank.md R73). -/
theorem hostSetup_unconfigured {p : List Byte} {s : State} (hp : p.length = 8) (hc : (s.bank .ep0Out).configured = false) :
    hostSetup p s = .next (withResult .noHandshake s) := by
  simp [hostSetup, hp, hc]

@[simp] theorem setupTaken_bank_ep0Out (s : State) :
    (setupTaken s).bank .ep0Out = { s.bank .ep0Out with byteCount := 8, ready := false } := by
  simp [setupTaken]

@[simp] theorem setupTaken_bank_ep0In (s : State) :
    (setupTaken s).bank .ep0In = { s.bank .ep0In with ready := false } := by
  simp [setupTaken]

/-- A SETUP packet touches the two EP0 banks alone. -/
theorem setupTaken_sameBanksBut (s : State) : SameBanksBut [.ep0Out, .ep0In] s (setupTaken s) := fun b hb => by
  obtain ⟨hout, hin⟩ : b ≠ .ep0Out ∧ b ≠ .ep0In := by simpa using hb
  simp [setupTaken, hout, hin]

/-- Settles O41, by whether EP0 is configured. -/
theorem hostSetupIsAlwaysTaken : Obligations.HostSetupIsAlwaysTaken := by
  refine fun p s hp => ⟨fun hc => ?_, fun hc => ?_⟩
  · have hnext := hostSetup_configured hp hc
    have hframe := hostSetup_packetFrame hnext
    exact ⟨_, hnext, rfl, (writeBytes_stored s .ep0OutBuf p).congr rfl rfl, setupTaken_bank_ep0Out _, setupTaken_bank_ep0In _,
      setupTaken_sameBanksBut _, rfl, hframe.script, hframe.sameControl, hframe.sameBot⟩
  · have hnext := hostSetup_unconfigured hp hc
    have hframe := hostSetup_packetFrame hnext
    exact ⟨_, hnext, rfl, .refl _ s, hframe.sameControl, hframe.sameBot, .refl s, .refl s⟩

-- ## OUT packets

/-- The state with an OUT packet stored in the bank it was sent to (40_endpoint_bank.md R74). -/
def outTaken (ep : OutEp) (d : List Byte) (s : State) : State :=
  ((s.writeBytes (ownBuffer (outBank ep)) 0 d).setBank (outBank ep)
    { s.bank (outBank ep) with byteCount := BitVec.ofNat 32 d.length, ready := false }).setFlag (outTrcpt ep) true

section
variable {ep : OutEp} {d : List Byte} {s : State}

theorem hostStep_out_of_hostOutEp {k : Nat} (s : State) (hk : hostOutEp k = some ep) (hd : d.length ≤ 64) :
    hostStep (.out k d) s = hostOutOn ep d s := by
  simp only [hostStep, hostOut, hk, if_neg hd.not_gt]

theorem hostOutOn_unconfigured (d : List Byte) (hc : (s.bank (outBank ep)).configured = false) :
    hostOutOn ep d s = .next (withResult .noHandshake s) := by
  simp [hostOutOn, hc]

theorem hostOutOn_stalled (d : List Byte) (hc : (s.bank (outBank ep)).configured = true)
    (hs : (s.bank (outBank ep)).stall = true) :
    hostOutOn ep d s = .next (withResult .stall (s.setFlag (outStall ep) true)) := by
  simp [hostOutOn, hc, hs]

theorem hostOutOn_notReady (d : List Byte) (hc : (s.bank (outBank ep)).configured = true)
    (hs : (s.bank (outBank ep)).stall = false) (hr : (s.bank (outBank ep)).ready = false) :
    hostOutOn ep d s = .next (withResult .nak s) := by
  simp [hostOutOn, hc, hs, hr]

theorem hostOutOn_ready (hd : d.length ≤ 64) (hc : (s.bank (outBank ep)).configured = true)
    (hs : (s.bank (outBank ep)).stall = false) (hr : (s.bank (outBank ep)).ready = true) :
    hostOutOn ep d s = .next (withResult .ack (outTaken ep d s)) := by
  simp [hostOutOn, hc, hs, hr, memWrite_ok, hd, outTaken]

end

/-- Settles O42, by the first of the bank's configured, stall and ready bits that decides the answer. -/
theorem hostOutFollowsTheBank : Obligations.HostOutFollowsTheBank := by
  intro k ep d s hk hd
  rw [hostStep_out_of_hostOutEp s hk hd]
  cases hc : (s.bank (outBank ep)).configured with
  | false =>
    have hnext := hostOutOn_unconfigured d hc
    have hframe := hostOutOn_packetFrame hnext
    exact ⟨_, hnext, hframe.sameControl, hframe.sameBot, hframe.script, .refl _ s,
      fun _ => ⟨rfl, rfl, rfl, .refl s⟩, nofun, nofun, nofun⟩
  | true =>
  cases hs : (s.bank (outBank ep)).stall with
  | true =>
    have hnext := hostOutOn_stalled d hc hs
    have hframe := hostOutOn_packetFrame hnext
    exact ⟨_, hnext, hframe.sameControl, hframe.sameBot, hframe.script, .refl _ s,
      nofun, fun _ _ => ⟨rfl, rfl, rfl, .refl s⟩, nofun, nofun⟩
  | false =>
  cases hr : (s.bank (outBank ep)).ready with
  | false =>
    have hnext := hostOutOn_notReady d hc hs hr
    have hframe := hostOutOn_packetFrame hnext
    exact ⟨_, hnext, hframe.sameControl, hframe.sameBot, hframe.script, .refl _ s,
      nofun, nofun, fun _ _ _ => ⟨rfl, rfl, rfl, .refl s⟩, nofun⟩
  | true =>
    have hnext := hostOutOn_ready hd hc hs hr
    have hframe := hostOutOn_packetFrame hnext
    have hstored : StoredFrom0 (ownBuffer (outBank ep)) d s (outTaken ep d s) := (writeBytes_stored s _ d).congr rfl rfl
    exact ⟨_, hnext, hframe.sameControl, hframe.sameBot, hframe.script, setBank_sameBanksBut s (outBank ep) _,
      nofun, nofun, nofun, fun _ _ _ => ⟨rfl, hstored, setBank_bank_self _ _ _, rfl⟩⟩

-- ## IN tokens

section
variable {ep : InEp} {s : State}

theorem hostStep_inn_of_hostInEp {k : Nat} (s : State) (hk : hostInEp k = some ep) : hostStep (.inn k) s = hostInOn ep s := by
  simp only [hostStep, hostIn, hk]

theorem hostInOn_unconfigured (hc : (s.bank (inBank ep)).configured = false) :
    hostInOn ep s = .next (withResult .noHandshake s) := by
  simp [hostInOn, hc]

theorem hostInOn_stalled (hc : (s.bank (inBank ep)).configured = true) (hs : (s.bank (inBank ep)).stall = true) :
    hostInOn ep s = .next (withResult .stall (s.setFlag (inStall ep) true)) := by
  simp [hostInOn, hc, hs]

theorem hostInOn_notReady (hc : (s.bank (inBank ep)).configured = true) (hs : (s.bank (inBank ep)).stall = false)
    (hr : (s.bank (inBank ep)).ready = false) : hostInOn ep s = .next (withResult .nak s) := by
  simp [hostInOn, hc, hs, hr]

theorem hostInOn_ready (hn : (s.bank (inBank ep)).byteCount.toNat ≤ 64) (hc : (s.bank (inBank ep)).configured = true)
    (hs : (s.bank (inBank ep)).stall = false) (hr : (s.bank (inBank ep)).ready = true) :
    hostInOn ep s =
      .next (withResult (.data (s.bytesFrom (ownBuffer (inBank ep)) 0 (s.bank (inBank ep)).byteCount.toNat))
        ((s.setBank (inBank ep) { s.bank (inBank ep) with ready := false }).setFlag (inTrcpt ep) true)) := by
  simp [hostInOn, hc, hs, hr, memRead_ok, hn]

end

/-- The bytes a bounded read from offset 0 gives are the buffer's, one for one. -/
theorem bytesFrom_zero_getElem? (s : State) (b : PacketBuf) (n i : Nat) (hi : i < (s.bytesFrom b 0 n).length) :
    (s.bytesFrom b 0 n)[i]? = some (s.byteAt b i) := by
  rw [bytesFrom_getElem? s b 0 n i (by simpa using hi), Nat.zero_add]

/-- Settles O43, by the first of the bank's configured, stall and ready bits that decides the answer. -/
theorem hostInFollowsTheBank : Obligations.HostInFollowsTheBank := by
  intro k ep s hk hn
  rw [hostStep_inn_of_hostInEp s hk]
  cases hc : (s.bank (inBank ep)).configured with
  | false =>
    have hnext := hostInOn_unconfigured hc
    have hframe := hostInOn_packetFrame hnext
    exact ⟨_, hnext, hframe.sameControl, hframe.sameBot, hframe.script, .refl s, .refl _ s,
      fun _ => ⟨rfl, rfl, rfl⟩, nofun, nofun, nofun⟩
  | true =>
  cases hs : (s.bank (inBank ep)).stall with
  | true =>
    have hnext := hostInOn_stalled hc hs
    have hframe := hostInOn_packetFrame hnext
    exact ⟨_, hnext, hframe.sameControl, hframe.sameBot, hframe.script, .refl s, .refl _ s,
      nofun, fun _ _ => ⟨rfl, rfl, rfl⟩, nofun, nofun⟩
  | false =>
  cases hr : (s.bank (inBank ep)).ready with
  | false =>
    have hnext := hostInOn_notReady hc hs hr
    have hframe := hostInOn_packetFrame hnext
    exact ⟨_, hnext, hframe.sameControl, hframe.sameBot, hframe.script, .refl s, .refl _ s,
      nofun, nofun, fun _ _ _ => ⟨rfl, rfl, rfl⟩, nofun⟩
  | true =>
    have hnext := hostInOn_ready hn hc hs hr
    have hframe := hostInOn_packetFrame hnext
    have hdata := bytesFrom_zero_getElem? s (ownBuffer (inBank ep)) (s.bank (inBank ep)).byteCount.toNat
    exact ⟨_, hnext, hframe.sameControl, hframe.sameBot, hframe.script, .refl s, setBank_sameBanksBut s (inBank ep) _,
      nofun, nofun, nofun,
      fun _ _ _ => ⟨⟨_, rfl, bytesFrom_length s _ 0 _, hdata⟩, setBank_bank_self _ _ _, rfl⟩⟩

end Sys2Proof.Machine
end

section
/-! PROOFS. The control engine's requests: the three terminal actions of a control transfer, and what each request does up to the one
it ends in. -/

namespace Sys2Proof.Machine

-- ## Agreement

theorem SameBanksBut.mono {l k : List Bank} {s t : State} (h : SameBanksBut l s t) (hlk : l ⊆ k) : SameBanksBut k s t :=
  fun b hb => h b fun hl => hb (hlk hl)

theorem SameControlButState.trans {s t u : State} (h : SameControlButState s t) (k : SameControlButState t u) :
    SameControlButState s u :=
  ⟨k.1.trans h.1, k.2.trans h.2, k.3.trans h.3, k.4.trans h.4⟩

theorem SameControl.butState {s t : State} (h : SameControl s t) : SameControlButState s t :=
  ⟨h.setup, h.addrPendingValid, h.addrPending, h.devAddr⟩

theorem SameBot.botNamed {s t : State} (h : SameBot s t) (hs : BotNamed s) : BotNamed t := by
  rw [BotNamed, h.botState]; exact hs

/-- What stands in a buffer does not depend on steps before and after that write no byte. -/
theorem StoredFrom0.of_sameBytes {p : PacketBuf} {v : List Byte} {s t u w : State} (hst : SameBytes s t)
    (htu : StoredFrom0 p v t u) (huw : SameBytes u w) : StoredFrom0 p v s w :=
  ⟨fun i hi => by rw [huw]; exact htu.1 i hi, fun b i hb => by rw [huw, ← hst]; exact htu.2 b i hb⟩

-- ## Sequences of bank operations

/-- `t` agrees with `s` but for the listed banks and the operations appended to the output list. -/
structure OnlyBanksChange (l : List Bank) (ops : List BankOp) (s t : State) : Prop where
  banks : SameBanksBut l s t
  control : SameControl s t
  bot : SameBot s t
  inputs : SameInputs s t
  bytes : SameBytes s t
  ops : Emits ops s t

theorem OnlyBanksChange.trans {l k : List Bank} {a b : List BankOp} {s t u : State} (h : OnlyBanksChange l a s t)
    (h' : OnlyBanksChange k b t u) : OnlyBanksChange (l ++ k) (a ++ b) s u where
  banks := (h.banks.mono (List.subset_append_left l k)).trans (h'.banks.mono (List.subset_append_right l k))
  control := h.control.trans h'.control
  bot := h.bot.trans h'.bot
  inputs := h.inputs.trans h'.inputs
  bytes := h.bytes.trans h'.bytes
  ops := h.ops.trans h'.ops

theorem setBank_pushOp_frame (s : State) (b : Bank) (d : BankDesc) (op : BankOp) :
    OnlyBanksChange [b] [op] s ((s.setBank b d).pushOp op) := by
  obtain ⟨hbanks, hcontrol, hbot, hinputs, hbytes, hops⟩ := setBank_pushOp_onlyBankChanges s b d op
  exact ⟨hbanks, hcontrol, hbot, hinputs, hbytes, hops⟩

/-- Setting a STALL (40_endpoint_bank.md R70). -/
theorem emit_stall_stalled (b : Bank) (s : State) :
    ∃ t, emit (.stall b) s = .next t ∧ t.bank b = { s.bank b with stall := true } ∧ OnlyBanksChange [b] [.stall b] s t :=
  ⟨_, emit_stall b s, setBank_bank_self s b _, setBank_pushOp_frame s b _ _⟩

/-- Clearing a STALL (40_endpoint_bank.md R71). -/
theorem emit_clearStall_cleared (b : Bank) (s : State) :
    ∃ t, emit (.clearStall b) s = .next t ∧ t.bank b = { s.bank b with stall := false } ∧
      OnlyBanksChange [b] [.clearStall b] s t :=
  ⟨_, emit_clearStall b s, setBank_bank_self s b _, setBank_pushOp_frame s b _ _⟩

/-- Arming an IN bank with a packet that fits (40_endpoint_bank.md R67). -/
theorem emit_armSend_armed (ep : InEp) {n : Nat} (s : State) (hn : n ≤ 64) :
    ∃ t, emit (.armSend ep n) s = .next t ∧
      t.bank (inBank ep) = { s.bank (inBank ep) with byteCount := BitVec.ofNat 32 n, ready := true } ∧
      OnlyBanksChange [inBank ep] [.armSend ep n] s t :=
  ⟨_, emit_armSend ep n s hn, setBank_bank_self s (inBank ep) _, setBank_pushOp_frame s (inBank ep) _ _⟩

-- ## The terminal actions

/-- Settles O11: one bank and `ep0_state` are written. -/
theorem zlpAckArmsAnEmptyPacket : Obligations.ZlpAckArmsAnEmptyPacket := fun s =>
  ⟨_, zlpAck_eq s,
    { armed := setBank_bank_self s .ep0In _
      ep0State := rfl
      banks := setBank_sameBanksBut s .ep0In _
      control := ⟨rfl, rfl, rfl, rfl⟩
      bot := ⟨rfl, rfl, rfl, rfl⟩
      inputs := ⟨rfl, rfl⟩
      bytes := sameBytes_of_bufs rfl
      ops := rfl }⟩

/-- A response that fits one packet is staged whole (42_control_engine.md R92). -/
theorem inStage_staged {v : List Byte} (s : State) (hv : v.length ≤ 64) : ∃ t, inStage v s = .next t ∧ Ep0Staged v s t :=
  ⟨_, inStage_eq v s hv,
    { stored := (writeBytes_stored s .ep0InBuf v).congr rfl rfl
      armed := setBank_bank_self _ .ep0In _
      ep0State := rfl
      banks := setBank_sameBanksBut _ .ep0In _
      control := ⟨rfl, rfl, rfl, rfl⟩
      bot := ⟨rfl, rfl, rfl, rfl⟩
      inputs := ⟨rfl, rfl⟩
      ops := rfl }⟩

/-- A response is staged as its first 64 bytes are (42_control_engine.md R92). -/
theorem inStage_take (v : List Byte) (s : State) : inStage (v.take 64) s = inStage v s := by
  simp [inStage, Config.ep0Mps, List.take_take, Nat.min_comm]

/-- Settles O10, from the response that fits. -/
theorem inStageStagesAndArms : Obligations.InStageStagesAndArms := by
  intro v s
  rw [← inStage_take]
  exact inStage_staged s (List.length_take_le 64 v)

/-- The response to UnsupportedRequest stalls the control pipe and does nothing else (60_exceptions.md R135). -/
theorem raiseUnsupportedRequest_stalled (s : State) : ∃ t, raiseUnsupportedRequest s = .next t ∧ Ep0Stalled s t := by
  obtain ⟨u, hu, hout, huframe⟩ := emit_stall_stalled .ep0Out s
  obtain ⟨t, ht, hin, htframe⟩ := emit_stall_stalled .ep0In u
  have hframe := huframe.trans htframe
  refine ⟨{ t with ep0State := .expectSetup }, ?_,
    { outBank := (htframe.banks .ep0Out (by decide)).trans hout
      inBank := huframe.banks .ep0In (by decide) ▸ hin
      ep0State := rfl
      banks := hframe.banks
      control := { hframe.control.butState with }
      bot := { hframe.bot with }
      inputs := hframe.inputs
      bytes := hframe.bytes
      ops := hframe.ops }⟩
  simp only [raiseUnsupportedRequest, emitAll, hu, ht, andThen_next]

-- ## Requests with a data stage

/-- MAX_LUN_DATA is one zero byte (20_memory.md R36). -/
theorem maxLunData_eq : maxLunData = List.replicate 1 0 := rfl

/-- Settles O12: the bytes staged are the first min(wLength, 1) of MAX_LUN_DATA. -/
theorem getMaxLunStagesZero : Obligations.GetMaxLunStagesZero := by
  intro value length s
  have hlen : min length.toNat 1 ≤ 1 := Nat.min_le_right _ _
  have hread : tableRead maxLunData 0 (min length.toNat 1) = .next (List.replicate (min length.toNat 1) 0) := by
    rw [tableRead_ok maxLunData _ hlen, maxLunData_eq, List.take_replicate, Nat.min_eq_left hlen]
  simp only [exec, execClassGetMaxLun, hread, andThen_next]
  exact inStage_staged s (by rw [List.length_replicate]; omega)

/-- No descriptor is longer than the configuration bundle (41_descriptor_table.md R83). -/
theorem descriptorOf_length_le {t : BitVec 8} {d : List Byte} (h : descriptorOf t = some d) : d.length ≤ 32 := by
  unfold descriptorOf at h
  split at h
  · cases h; decide
  split at h
  · cases h; decide
  · cases h

/-- Types other than 1 and 2 have no descriptor (41_descriptor_table.md R83). -/
theorem descriptorOf_eq_none {t : BitVec 8} (hdevice : t ≠ 1) (hconfig : t ≠ 2) : descriptorOf t = none := by
  rw [descriptorOf, if_neg (by simpa using hdevice), if_neg (by simpa using hconfig)]

/-- GET_DESCRIPTOR of a known type stages the first bytes of its descriptor (42_control_engine.md R98). -/
theorem getDescriptor_known {d : BitVec 8} {v : List Byte} (len : BitVec 16) (s : State) (hd : descriptorOf d = some v) :
    ∃ t, getDescriptor d len s = .next t ∧ Ep0Staged (v.take (min len.toNat v.length)) s t := by
  have hv := descriptorOf_length_le hd
  simp only [getDescriptor, resolve_known d len v hd, andThen_next]
  exact inStage_staged s (by rw [List.length_take]; omega)

/-- GET_DESCRIPTOR of an unknown type stalls the control pipe (42_control_engine.md R98). -/
theorem getDescriptor_unknown {d : BitVec 8} (len : BitVec 16) (s : State) (hd : descriptorOf d = none) :
    ∃ t, getDescriptor d len s = .next t ∧ Ep0Stalled s t := by
  simp only [getDescriptor, resolve_unknown d len hd, andThen_next]
  exact raiseUnsupportedRequest_stalled s

/-- Settles O13, by whether the type has a descriptor. -/
theorem getDescriptorStagesThePrefixOrStalls : Obligations.GetDescriptorStagesThePrefixOrStalls := by
  intro rt descIndex index length s
  refine ⟨getDescriptor_known (v := deviceDescriptor) length s rfl, getDescriptor_known (v := configDescriptor) length s rfl,
    fun descType hdevice hconfig => ?_⟩
  exact getDescriptor_unknown length s (descriptorOf_eq_none hdevice hconfig)

/-- Settles O14: the three rows are the one response. -/
theorem unsupportedRequestsStallTheControlPipe : Obligations.UnsupportedRequestsStallTheControlPipe := fun _ _ _ _ _ s =>
  ⟨raiseUnsupportedRequest_stalled s, raiseUnsupportedRequest_stalled s, raiseUnsupportedRequest_stalled s⟩

-- ## Requests without data

/-- wValue[6:0] is wValue modulo 128 (30_encoding.md R53). -/
theorem newAddrOf_toNat (value : BitVec 16) : (newAddrOf value).toNat = value.toNat % 128 := by
  simp [newAddrOf]

/-- Settles O15: the acknowledgement follows the latch and leaves it alone. -/
theorem setAddressOnlyLatches : Obligations.SetAddressOnlyLatches := by
  intro rt value index s
  obtain ⟨t, ht, hack⟩ := zlpAckArmsAnEmptyPacket { s with addrPending := newAddrOf value, addrPendingValid := true }
  obtain ⟨hsetup, hvalid, hpending, haddr⟩ := hack.control
  exact ⟨t, ht, hvalid, hpending ▸ newAddrOf_toNat value, haddr, hack.ep0State, hsetup, hack.armed, hack.banks,
    { hack.bot with }, hack.inputs, hack.bytes, hack.ops⟩

/-- Before its acknowledgement SET_CONFIGURATION configures and releases the bulk banks and does nothing else
(42_control_engine.md R100). -/
theorem bulkConfigured_frame (s : State) :
    OnlyBanksChange [.ep1In, .ep2Out, .ep2Out]
      [.configure .ep1In .bulk .ep1InBuf 64, .configure .ep2Out .bulk .ep2OutBuf 64, .release .ep2] s (bulkConfigured s) :=
  (setBank_pushOp_frame s .ep1In _ _).trans ((setBank_pushOp_frame _ .ep2Out _ _).trans (setBank_pushOp_frame _ .ep2Out _ _))

theorem bulkConfigured_bank_ep1In (s : State) :
    (bulkConfigured s).bank .ep1In = .configuredAs .bulk .ep1InBuf 64 := by
  simp [bulkConfigured]

theorem bulkConfigured_bank_ep2Out (s : State) :
    (bulkConfigured s).bank .ep2Out = { BankDesc.configuredAs .bulk .ep2OutBuf 64 with ready := true } := by
  simp [bulkConfigured]

/-- Settles O16: the acknowledgement, on EP0 IN, follows the operations on the bulk banks. -/
theorem setConfigurationConfiguresTheBulkBanks : Obligations.SetConfigurationConfiguresTheBulkBanks := by
  intro rt value index s
  have hframe := bulkConfigured_frame s
  obtain ⟨t, ht, hack⟩ := zlpAckArmsAnEmptyPacket (bulkConfigured s)
  refine ⟨t, (execSetConfiguration_eq rt value index s).trans ht, ?_, ?_, ?_, ?_, hack.ep0State,
    hframe.control.butState.trans hack.control, hframe.bot.trans hack.bot, hframe.inputs.trans hack.inputs,
    hframe.bytes.trans hack.bytes, hframe.ops.trans hack.ops⟩
  · exact (hack.banks .ep1In (by decide)).trans (bulkConfigured_bank_ep1In s)
  · exact (hack.banks .ep2Out (by decide)).trans (bulkConfigured_bank_ep2Out s)
  · exact hframe.banks .ep0In (by decide) ▸ hack.armed
  · exact (hack.banks .ep0Out (by decide)).trans (hframe.banks .ep0Out (by decide))

/-- Settles O18: the row is the acknowledgement. -/
theorem otherRequestsAreOnlyAcknowledged : Obligations.OtherRequestsAreOnlyAcknowledged := fun _ _ _ _ s =>
  zlpAckArmsAnEmptyPacket s

-- ## CLEAR_FEATURE on endpoint 0x81

/-- StallCleared in StallPending stages the failed command's CSW (43_bot_engine.md R110). -/
theorem handle_stallCleared_stallPending {s : State} (hs : s.botState = .stallPending) :
    handle .stallCleared s = stageCsw s := by
  simp only [handle, hs, cellStallPendingStallCleared]

/-- StallCleared in any other named state answers NoData (43_bot_engine.md R112, R113). -/
theorem handle_stallCleared_other {s : State} (hnamed : BotNamed s) (hs : s.botState ≠ .stallPending) :
    handle .stallCleared s = .next (s, .noData) := by
  obtain ⟨h6, h7⟩ := hnamed
  unfold handle
  cases hb : s.botState with
  | stallPending => exact absurd hb hs
  | reserved6 => exact absurd hb h6
  | reserved7 => exact absurd hb h7
  | expectingCbw | dataInPending | expectingDataOut | cswPending | error => rfl

/-- Staging a CSW writes the CSW's bytes and registers and enters CSWPending (43_bot_engine.md R106, R107). -/
theorem stageCsw_staged (s : State) : ∃ t, stageCsw s = .next (t, .send 13) ∧ CswStaged s t :=
  ⟨_, stageCsw_eq s,
    { stored := (writeBytes_stored s.withCsw .ep1InBuf (closingCsw s)).congr rfl rfl
      csw := rfl
      botState := rfl
      cbw := rfl
      remaining := rfl
      control := ⟨rfl, rfl, rfl, rfl, rfl⟩
      banks := fun _ _ => rfl
      inputs := ⟨rfl, rfl⟩
      ops := (List.append_nil _).symm }⟩

/-- CLEAR_FEATURE_EP81 where its parts answer next states (42_control_engine.md R101). -/
theorem exec_clearFeatureEp81_of_parts (rt : BitVec 7) (value : BitVec 16) {s c r u : State} {o : BotOutcome}
    (hc : emit (.clearStall .ep1In) s = .next c) (hr : handle .stallCleared c = .next (r, o))
    (hu : applyOutcome o r = .next u) : exec (.clearFeatureEp81 rt value) s = zlpAck u := by
  simp only [exec, execClearFeatureEp81, hc, hr, hu, andThen_next]

/-- Settles O17: in StallPending the cell stages the failed CSW and `apply_outcome` arms it, in every other named state both do
nothing; the STALL is cleared before and the request acknowledged after. -/
theorem clearFeatureRegeneratesTheFailedCsw : Obligations.ClearFeatureRegeneratesTheFailedCsw := by
  intro rt value s
  obtain ⟨c, hc, hcleared, hcframe⟩ := emit_clearStall_cleared .ep1In s
  have hcbot := hcframe.bot
  refine ⟨fun hs => ?_, fun hnamed hs => ?_⟩
  · obtain ⟨r, hr, hcsw⟩ := stageCsw_staged c
    rw [← handle_stallCleared_stallPending (hcbot.botState.trans hs)] at hr
    obtain ⟨u, hu, harmed, huframe⟩ := emit_armSend_armed .ep1 (n := 13) r (by omega)
    obtain ⟨t, ht, hack⟩ := zlpAckArmsAnEmptyPacket u
    have hclosing : closingCsw c = closingCsw s := by
      simp only [closingCsw, hcbot.cbw, hcbot.csw, hcbot.remaining]
    have hbot : SameBot r t := huframe.bot.trans hack.bot
    refine ⟨t, (exec_clearFeatureEp81_of_parts rt value hc hr hu).trans ht,
      .of_sameBytes hcframe.bytes (hclosing ▸ hcsw.stored) (huframe.bytes.trans hack.bytes), ?_, ?_,
      hbot.botState.trans hcsw.botState, ?_, hbot.cbw.trans (hcsw.cbw.trans hcbot.cbw),
      hbot.remaining.trans (hcsw.remaining.trans hcbot.remaining), hack.ep0State, ?_,
      (hcframe.control.trans (hcsw.control.trans huframe.control)).butState.trans hack.control,
      hcframe.inputs.trans (hcsw.inputs.trans (huframe.inputs.trans hack.inputs)),
      hcframe.ops.trans (hcsw.ops.trans (huframe.ops.trans hack.ops))⟩
    · rw [hack.banks .ep1In (by decide), ← inBank_ep1, harmed, hcsw.banks _ (by decide), inBank_ep1, hcleared]; rfl
    · rw [hack.armed, huframe.banks .ep0In (by decide), hcsw.banks _ (by decide), hcframe.banks .ep0In (by decide)]
    · rw [hbot.csw, hcsw.csw, hcbot.cbw, hcbot.remaining, hcbot.csw]
    · exact (hcframe.banks.mono (by decide)).trans ((hcsw.banks.mono (by decide)).trans
        ((huframe.banks.mono (by decide)).trans (hack.banks.mono (by decide))))
  · obtain ⟨t, ht, hack⟩ := zlpAckArmsAnEmptyPacket c
    have hr := handle_stallCleared_other (hcbot.botNamed hnamed) (hcbot.botState ▸ hs)
    refine ⟨t, (exec_clearFeatureEp81_of_parts rt value hc hr rfl).trans ht, (hack.banks .ep1In (by decide)).trans hcleared, ?_,
      hack.ep0State, ?_, hcframe.control.butState.trans hack.control, hcbot.trans hack.bot, hcframe.inputs.trans hack.inputs,
      hcframe.bytes.trans hack.bytes, hcframe.ops.trans hack.ops⟩
    · exact hcframe.banks .ep0In (by decide) ▸ hack.armed
    · exact (hcframe.banks.mono (by decide)).trans (hack.banks.mono (by decide))

end Sys2Proof.Machine
end

section
/-! PROOFS. The SETUP event: the state its preamble leaves, the request it runs there, and the one terminal action in which every
request ends. -/

namespace Sys2Proof.Machine

-- ## The preamble

/-- After the latch, the preamble of a SETUP event acts on the two EP0 banks and does nothing else (42_control_engine.md R84). -/
theorem afterPreamble_frame (s : State) :
    OnlyBanksChange [.ep0Out, .ep0In, .ep0Out] [.clearStall .ep0Out, .clearStall .ep0In, .release .ep0]
      (latchSetup (receivedSetup s) s) (afterPreamble s) :=
  (setBank_pushOp_frame _ .ep0Out _ _).trans ((setBank_pushOp_frame _ .ep0In _ _).trans (setBank_pushOp_frame _ .ep0Out _ _))

theorem afterPreamble_bank_ep0Out (s : State) :
    (afterPreamble s).bank .ep0Out = { s.bank .ep0Out with stall := false, ready := true } := by
  simp [afterPreamble]

theorem afterPreamble_bank_ep0In (s : State) : (afterPreamble s).bank .ep0In = { s.bank .ep0In with stall := false } := by
  simp [afterPreamble]

/-- Settles O19: the state handed to the request is the one the preamble leaves. -/
theorem setupEventRunsTheDecodedRequest : Obligations.SetupEventRunsTheDecodedRequest := by
  intro s
  obtain ⟨hbanks, ⟨hstate, hsetup, hvalid, hpending, haddr⟩, hbot, hinputs, hbytes, hops⟩ := afterPreamble_frame s
  exact ⟨afterPreamble s, hsetup, hvalid, hpending, haddr, hstate, afterPreamble_bank_ep0Out s, afterPreamble_bank_ep0In s,
    hbanks.mono (by decide), { hbot with }, hinputs, hbytes, hops, execEp0Setup_eq s⟩

-- ## The terminal action of a request

/-- `fin` is one terminal action of the control pipe, left in its `ep0_state` (42_control_engine.md R94). A data stage is at most
the 32 bytes of the longest response. -/
def TerminalAction (fin : List BankOp) (t : State) : Prop :=
  (t.ep0State = .dataStageIn ∧ ∃ n, n ≤ 32 ∧ fin = [.armSend .ep0 n]) ∨
    (t.ep0State = .noDataStatus ∧ fin = [.armSend .ep0 0]) ∨
    (t.ep0State = .expectSetup ∧ fin = [.stall .ep0Out, .stall .ep0In])

/-- From `s` to `t` one terminal action was performed, after operations of which none acts on EP0 (42_control_engine.md R94). -/
def EndsTransfer (s t : State) : Prop :=
  ∃ mid fin, Emits (mid ++ fin) s t ∧ (∀ op ∈ mid, onEp0 op = false) ∧ TerminalAction fin t

theorem Ep0Staged.endsTransfer {v : List Byte} {s t : State} (h : Ep0Staged v s t) (hv : v.length ≤ 32) : EndsTransfer s t :=
  ⟨[], _, h.ops, nofun, .inl ⟨h.ep0State, _, hv, rfl⟩⟩

theorem Ep0Stalled.endsTransfer {s t : State} (h : Ep0Stalled s t) : EndsTransfer s t :=
  ⟨[], _, h.ops, nofun, .inr (.inr ⟨h.ep0State, rfl⟩)⟩

/-- An acknowledgement ends the transfer after operations that leave EP0 alone. -/
theorem EndsTransfer.of_ack {mid : List BankOp} {s t : State} (hops : Emits (mid ++ [.armSend .ep0 0]) s t)
    (hmid : ∀ op ∈ mid, onEp0 op = false) (hstate : t.ep0State = .noDataStatus) : EndsTransfer s t :=
  ⟨mid, _, hops, hmid, .inr (.inl ⟨hstate, rfl⟩)⟩

/-- GET_DESCRIPTOR of any type ends the transfer: no descriptor is longer than 32 bytes. -/
theorem getDescriptor_endsTransfer (d : BitVec 8) (len : BitVec 16) (s : State) :
    ∃ t, getDescriptor d len s = .next t ∧ EndsTransfer s t := by
  cases hd : descriptorOf d with
  | some v =>
    obtain ⟨t, ht, hstaged⟩ := getDescriptor_known len s hd
    exact ⟨t, ht, hstaged.endsTransfer ((List.length_take_le' _ v).trans (descriptorOf_length_le hd))⟩
  | none =>
    obtain ⟨t, ht, hstalled⟩ := getDescriptor_unknown len s hd
    exact ⟨t, ht, hstalled.endsTransfer⟩

theorem raiseUnsupportedRequest_endsTransfer (s : State) : ∃ t, raiseUnsupportedRequest s = .next t ∧ EndsTransfer s t := by
  obtain ⟨t, ht, hstalled⟩ := raiseUnsupportedRequest_stalled s
  exact ⟨t, ht, hstalled.endsTransfer⟩

theorem exec_clearFeatureEp81_endsTransfer (rt : BitVec 7) (value : BitVec 16) {s : State} (hs : BotNamed s) :
    ∃ t, exec (.clearFeatureEp81 rt value) s = .next t ∧ EndsTransfer s t := by
  obtain ⟨hfailed, hother⟩ := clearFeatureRegeneratesTheFailedCsw rt value s
  by_cases hb : s.botState = .stallPending
  · obtain ⟨t, ht, -, -, -, -, -, -, -, hstate, -, -, -, hops⟩ := hfailed hb
    exact ⟨t, ht, .of_ack (mid := [.clearStall .ep1In, .armSend .ep1 13]) hops (by decide) hstate⟩
  · obtain ⟨t, ht, -, -, hstate, -, -, -, -, -, hops⟩ := hother hs hb
    exact ⟨t, ht, .of_ack (mid := [.clearStall .ep1In]) hops (by decide) hstate⟩

/-- Every request ends its transfer in one terminal action (42_control_engine.md R94, R96 to R103). -/
theorem exec_decodeSetup_endsTransfer (r : SetupRequest) {s : State} (hs : BotNamed s) :
    ∃ t, exec (decodeSetup r) s = .next t ∧ EndsTransfer s t := by
  unfold decodeSetup
  cases setupRow r with
  | classGetMaxLun =>
    obtain ⟨t, ht, hstaged⟩ := getMaxLunStagesZero r.value r.length s
    exact ⟨t, ht, hstaged.endsTransfer (by rw [List.length_replicate]; omega)⟩
  | getDescriptorDevice | getDescriptorConfiguration | getDescriptorUnsupported => exact getDescriptor_endsTransfer _ r.length s
  | classInUnsupported | inUnsupported | outWithData => exact raiseUnsupportedRequest_endsTransfer s
  | setAddress =>
    obtain ⟨t, ht, -, -, -, hstate, -, -, -, -, -, -, hops⟩ := setAddressOnlyLatches r.typeBits r.value r.index s
    exact ⟨t, ht, .of_ack (mid := []) hops nofun hstate⟩
  | setConfiguration =>
    obtain ⟨t, ht, -, -, -, -, hstate, -, -, -, -, hops⟩ :=
      setConfigurationConfiguresTheBulkBanks r.typeBits r.value r.index s
    exact ⟨t, ht, .of_ack (mid := [_, _, _]) hops (by decide) hstate⟩
  | clearFeatureEp81 => exact exec_clearFeatureEp81_endsTransfer r.typeBits r.value hs
  | outDefaultAck =>
    obtain ⟨t, ht, hack⟩ := zlpAckArmsAnEmptyPacket s
    exact ⟨t, ht, .of_ack (mid := []) hack.ops nofun hack.ep0State⟩

/-- Settles O20: the preamble keeps the BOT state, and the request it hands over to ends its transfer. -/
theorem setupTakesExactlyOneTerminalAction : Obligations.SetupTakesExactlyOneTerminalAction := by
  intro s hs
  obtain ⟨u, -, -, -, -, -, -, -, -, hbot, -, -, hpreamble, hrun⟩ := setupEventRunsTheDecodedRequest s
  obtain ⟨t, ht, mid, fin, hops, hmid, hfin⟩ := exec_decodeSetup_endsTransfer (receivedSetup s) (hbot.botNamed hs)
  refine ⟨t, mid, fin, hrun.trans ht, ?_, hmid, hfin⟩
  rw [List.append_assoc]
  exact hpreamble.trans hops

end Sys2Proof.Machine
end

section
/-! PROOFS. The events of endpoint 0 that end or leave alone a control transfer: EP0_TRCPT_IN by `ep0_state`, EP0_TRCPT_OUT, and the
STALL-sent events. -/

namespace Sys2Proof.Machine

theorem exec_ep0TrcptIn_dataStageIn {s : State} (hs : s.ep0State = .dataStageIn) :
    exec .ep0TrcptIn s = .next { s with ep0State := .expectSetup } := by
  simp only [exec, execEp0TrcptIn, hs]

theorem exec_ep0TrcptIn_noDataStatus {s : State} (hs : s.ep0State = .noDataStatus) :
    exec .ep0TrcptIn s = completeStatus s := by
  simp only [exec, execEp0TrcptIn, hs]

/-- Settles O21: the one assignment of R86. -/
theorem dataStageCompletionEndsTheTransaction : Obligations.DataStageCompletionEndsTheTransaction := fun _ hs =>
  ⟨_, exec_ep0TrcptIn_dataStageIn hs, rfl, fun _ _ => rfl, ⟨rfl, rfl, rfl, rfl⟩, ⟨rfl, rfl, rfl, rfl⟩, ⟨rfl, rfl⟩,
    sameBytes_of_bufs rfl, (List.append_nil _).symm⟩

/-- A pending address is written with bit 7 set and dropped (42_control_engine.md R87). -/
theorem completeStatus_pending {s : State} (hs : s.addrPendingValid = true) :
    completeStatus s = .next { ({ s with devAddr := 1#1 ++ s.addrPending }.pushOp (.writeAddress (1#1 ++ s.addrPending))) with
      addrPendingValid := false, ep0State := .expectSetup } := by
  rw [completeStatus, if_pos hs, enabledAddress_eq, emit_writeAddress, andThen_next]

/-- With no address pending the STATUS stage ends the transaction alone (42_control_engine.md R87). -/
theorem completeStatus_idle {s : State} (hs : s.addrPendingValid = false) :
    completeStatus s = .next { s with ep0State := .expectSetup } := by
  rw [completeStatus, if_neg (by simp [hs])]

/-- Settles O22, by whether an address is pending. -/
theorem statusStageWritesThePendingAddress : Obligations.StatusStageWritesThePendingAddress := by
  intro s hs
  rw [exec_ep0TrcptIn_noDataStatus hs]
  cases hvalid : s.addrPendingValid with
  | true =>
    exact ⟨_, completeStatus_pending hvalid, rfl, rfl, rfl, rfl, fun _ => ⟨rfl, rfl⟩, nofun, fun _ _ => rfl,
      ⟨rfl, rfl, rfl, rfl⟩, ⟨rfl, rfl⟩, sameBytes_of_bufs rfl⟩
  | false =>
    exact ⟨_, completeStatus_idle hvalid, rfl, hvalid, rfl, rfl, nofun, fun _ => ⟨rfl, (List.append_nil _).symm⟩,
      fun _ _ => rfl, ⟨rfl, rfl, rfl, rfl⟩, ⟨rfl, rfl⟩, sameBytes_of_bufs rfl⟩

/-- Settles O23: EP0_TRCPT_IN has no case for the two states, and EP0_TRCPT_OUT is the release. -/
theorem otherControlCompletionsAreAbsorbed : Obligations.OtherControlCompletionsAreAbsorbed := by
  refine fun s => ⟨?_, _, emit_release .ep0 s, setBank_bank_self s .ep0Out _, setBank_pushOp_onlyBankChanges s .ep0Out _ _⟩
  rintro (hs | hs) <;> simp only [exec, execEp0TrcptIn, hs]

/-- Settles O24: each of the four rows answers the state it is run at. -/
theorem stallSentEventsChangeNothing : Obligations.StallSentEventsChangeNothing := fun _ => ⟨rfl, rfl, rfl, rfl⟩

end Sys2Proof.Machine
end

section
/-! PROOFS. The cells of the BOT engine run on their own: `handle` as the table of the cells, and what the staging, closing, violation
and idle cells do. -/

namespace Sys2Proof.Machine

-- ## `handle` and the table of cells

/-- The row of a cell is `handle` of its BOT state and event, with the outcome recorded (43_bot_engine.md R105). -/
theorem exec_of_cellInstr {ev : BotEvent} {s : State} {i : Instr} (hi : cellInstr s.botState ev = some i) :
    exec i s = recordOutcome (handle ev s) := by
  unfold handle
  cases hb : s.botState <;> rw [hb] at hi <;> cases ev <;> cases hi <;> rfl

/-- The table has cells for the six named states alone (10_state.md R23). -/
theorem botNamed_of_cellInstr {ev : BotEvent} {s : State} {i : Instr} (hi : cellInstr s.botState ev = some i) : BotNamed s := by
  refine ⟨fun hb => ?_, fun hb => ?_⟩ <;> rw [hb] at hi <;> cases hi

/-- In a reserved state `handle` faults (10_state.md R23). -/
theorem handle_of_not_botNamed (ev : BotEvent) {s : State} (hs : ¬BotNamed s) : handle ev s = .fault .badBotState := by
  have hreserved : s.botState = .reserved6 ∨ s.botState = .reserved7 := by rwa [BotNamed, not_and_or, not_not, not_not] at hs
  rcases hreserved with hb | hb <;> simp only [handle, hb]

/-- In Error every event answers NoData and changes nothing (43_bot_engine.md R113). -/
theorem handle_error (ev : BotEvent) {s : State} (hs : s.botState = .error) : handle ev s = .next (s, .noData) := by
  cases ev <;> simp only [handle, hs] <;> rfl

/-- Settles O27: the cell rows are the table's cells, and a reserved state is no named one. -/
theorem handleRunsTheCellOfTheState : Obligations.HandleRunsTheCellOfTheState := fun ev _ =>
  ⟨fun _ => exec_of_cellInstr, fun hreserved => handle_of_not_botNamed ev fun ⟨h6, h7⟩ => hreserved.elim h6 h7⟩

-- ## The recorded outcome

/-- The state with an outcome recorded, as `recordOutcome` leaves it (log 1). -/
def withOutcome (o : BotOutcome) (s : State) : State := { s with out := { s.out with outcome := some o } }

theorem recordOutcome_next (s : State) (o : BotOutcome) : recordOutcome (.next (s, o)) = .next (withOutcome o s) := rfl

/-- A change of the BOT state and the recorded outcome leaves everything but the BOT registers alone. -/
theorem withOutcome_onlyBotChanges (s : State) (b : BotState) (o : BotOutcome) :
    OnlyBotChanges s (withOutcome o { s with botState := b }) where
  control := ⟨rfl, rfl, rfl, rfl, rfl⟩
  banks := .refl _ s
  inputs := .refl s
  bytes := .refl s
  ops := .refl s

-- ## The cells that stage a CSW

/-- The record of an outcome is no part of what a staged CSW is. -/
theorem CswStaged.withOutcome {s t : State} (h : CswStaged s t) (o : BotOutcome) : CswStaged s (withOutcome o t) :=
  { h with control := { h.control with } }

/-- A row that stages the CSW shows it and asks for its 13 bytes (43_bot_engine.md R106, R107). -/
theorem recordOutcome_stageCsw (s : State) :
    ∃ t, recordOutcome (stageCsw s) = .next t ∧ CswStaged s t ∧ t.out.outcome = some (.send 13) := by
  obtain ⟨t, ht, hstaged⟩ := stageCsw_staged s
  exact ⟨withOutcome (.send 13) t, by rw [ht, recordOutcome_next], hstaged.withOutcome _, rfl⟩

/-- Settles O28: the cell is the staging of the CSW. -/
theorem dataStageTakenStagesTheCsw : Obligations.DataStageTakenStagesTheCsw := recordOutcome_stageCsw

/-- Settles O29: both cells are the staging of the CSW. -/
theorem otherCswCellsStageTheCsw : Obligations.OtherCswCellsStageTheCsw := fun s =>
  ⟨recordOutcome_stageCsw s, recordOutcome_stageCsw s⟩

-- ## The cells that stage nothing

/-- Settles O31: the cell writes `bot_state` alone. -/
theorem cswTakenClosesTheCommand : Obligations.CswTakenClosesTheCommand := fun s =>
  ⟨_, rfl, rfl, rfl, rfl, rfl, rfl, withOutcome_onlyBotChanges s .expectingCbw .noData⟩

/-- Settles O32: each of the six cells is the one response to a sequence violation. -/
theorem sequenceViolationsEnterError : Obligations.SequenceViolationsEnterError := by
  intro i s hi
  have hrun : exec i s = recordOutcome (raiseSequenceViolation s) := by
    simp only [List.mem_cons, List.not_mem_nil, or_false] at hi
    rcases hi with rfl | rfl | rfl | rfl | rfl | rfl <;> rfl
  exact ⟨_, hrun, rfl, rfl, rfl, rfl, rfl, withOutcome_onlyBotChanges s .error .noData⟩

/-- Settles O33: each of the seven cells answers NoData at the state it is run at. -/
theorem idleCellsChangeNothing : Obligations.IdleCellsChangeNothing := by
  intro i s hi
  have hrun : exec i s = recordOutcome (answerNoData s) := by
    simp only [List.mem_cons, List.not_mem_nil, or_false] at hi
    rcases hi with rfl | rfl | rfl | rfl | rfl | rfl | rfl <;> rfl
  exact ⟨_, hrun, rfl, ⟨rfl, rfl, rfl, rfl⟩, withOutcome_onlyBotChanges s s.botState .noData⟩

end Sys2Proof.Machine
end

section
/-! PROOFS. What `handle` can touch and ask for in every cell, and the bulk completion events, which apply its outcome. -/

namespace Sys2Proof.Machine

-- ## The rules the cells share

/-- The rule `x`, run at `s`, answers a next state, in which no buffer but EP1_IN_BUF reads otherwise than before, and asks for at most
36 bytes (43_bot_engine.md R104, R114). -/
def AnswersWithin (s : State) (x : CellResult) : Prop :=
  ∃ t o, x = .next (t, o) ∧ (∀ b i, b ≠ .ep1InBuf → t.byteAt b i = s.byteAt b i) ∧ ∀ n, o = .send n → n ≤ 36

theorem stageCsw_answersWithin (s : State) : AnswersWithin s (stageCsw s) := by
  obtain ⟨t, ht, hstaged⟩ := stageCsw_staged s
  refine ⟨t, _, ht, fun b i hb => hstaged.stored.2 b i (.inl hb), ?_⟩
  rintro n ⟨⟩
  omega

/-- A data stage is at most its table, and no table is longer than the 36 bytes of INQUIRY_DATA. -/
theorem stageData_answersWithin {d : List Byte} (s : State) (hd : d.length ≤ 36) : AnswersWithin s (stageData d s) := by
  refine ⟨_, _, stageData_eq d s (by omega), fun b i hb => (writeBytes_stored s .ep1InBuf _).2 b i (.inl hb), ?_⟩
  rintro n ⟨⟩
  omega

/-- A rule that writes no buffer and sends no packet. -/
theorem answersWithin_of_bufs {s t : State} {o : BotOutcome} (hbufs : t.bufs = s.bufs) (ho : ∀ n, o ≠ .send n) :
    AnswersWithin s (.next (t, o)) :=
  ⟨t, o, rfl, fun b i _ => byteAt_congr hbufs b i, fun n hn => absurd hn (ho n)⟩

theorem runScsi_answersWithin (s : State) : AnswersWithin s (runScsi s) := by
  unfold runScsi
  cases scsiRow s.cbw.opcode with
  | testUnitReady => exact stageCsw_answersWithin s
  | inquiry => exact stageData_answersWithin s inquiryData_length.le
  | readCapacity10 => exact stageData_answersWithin s (by rw [readcapData_length]; omega)
  | unsupported => exact answersWithin_of_bufs rfl nofun

theorem takeCbw_answersWithin (s : State) : AnswersWithin s (takeCbw .strict s) := by
  rw [takeCbw_strict]
  split
  · exact runScsi_answersWithin (cbwTaken s)
  · exact answersWithin_of_bufs rfl nofun

/-- In a named state `handle` runs a rule and does not fault: `handle_cases` without its last case (43_bot_engine.md R105). -/
theorem handle_cases_of_botNamed (ev : BotEvent) {s : State} (hs : BotNamed s) :
    handle ev s = takeCbw .strict s ∨ handle ev s = stageCsw s ∨ handle ev s = closeCommand s ∨
      handle ev s = answerNoData s ∨ handle ev s = raiseSequenceViolation s := by
  obtain ⟨h6, h7⟩ := hs
  cases hb : s.botState <;> cases ev <;> simp only [handle, hb] <;> tauto

theorem handle_answersWithin (ev : BotEvent) {s : State} (hs : BotNamed s) : AnswersWithin s (handle ev s) := by
  rcases handle_cases_of_botNamed ev hs with he | he | he | he | he <;> rw [he]
  · exact takeCbw_answersWithin s
  · exact stageCsw_answersWithin s
  all_goals exact answersWithin_of_bufs rfl nofun

/-- Settles O40: the frame of `handle` holds in every state, and where it answers the state is a named one. -/
theorem handleTouchesOnlyTheBotEngine : Obligations.HandleTouchesOnlyTheBotEngine := by
  intro ev s t o h
  have hs : BotNamed s := by
    by_contra hs
    cases (handle_of_not_botNamed ev hs).symm.trans h
  obtain ⟨_, _, ht, hbytes, hbound⟩ := handle_answersWithin ev hs
  cases ht.symm.trans h
  have hframe := handle_botFrame h
  refine ⟨?_, ?_, ?_, ?_, hbytes, hbound⟩ <;> rw [hframe]
  · exact ⟨rfl, rfl, rfl, rfl, rfl⟩
  · exact fun _ _ => rfl
  · exact ⟨rfl, rfl⟩
  · exact (List.append_nil _).symm

-- ## Applying the outcome

/-- Applying an outcome that fits a packet acts on bulk IN and does nothing else (43_bot_engine.md R114). -/
theorem applyOutcome_applied {o : BotOutcome} (s : State) (ho : ∀ n, o = .send n → n ≤ 36) :
    ∃ t, applyOutcome o s = .next t ∧ t.bank .ep1In = outcomeBank o (s.bank .ep1In) ∧
      OnlyBanksChange [.ep1In] (outcomeOps o) s t := by
  obtain ⟨t, ht, hframe, hbulkIn, hbanks⟩ := applyOutcome_spec o s fun n hn => (ho n hn).trans (by omega)
  refine ⟨t, ht, hbulkIn, hbanks, ?_, ?_, ?_, ?_, ?_⟩ <;> rw [hframe]
  · exact ⟨rfl, rfl, rfl, rfl, rfl⟩
  · exact ⟨rfl, rfl, rfl, rfl⟩
  · exact ⟨rfl, rfl⟩
  · exact sameBytes_of_bufs rfl
  · exact rfl

/-- The cell of a bulk event, its outcome applied to bulk IN: what the two completion events share (43_bot_engine.md R115, R116). -/
theorem cell_outcome_applied {ev : BotEvent} {s : State} {i : Instr} (hi : cellInstr s.botState ev = some i) :
    ∃ r o t, handle ev s = .next (r, o) ∧ exec i s = .next (withOutcome o r) ∧ SameBanksBut [] s r ∧ Emits [] s r ∧
      applyOutcome o r = .next t ∧ t.bank .ep1In = outcomeBank o (s.bank .ep1In) ∧
      OnlyBanksChange [.ep1In] (outcomeOps o) r t := by
  obtain ⟨r, o, hr, -, -⟩ := handle_answersWithin ev (botNamed_of_cellInstr hi)
  obtain ⟨-, hbanks, -, hops, -, hbound⟩ := handleTouchesOnlyTheBotEngine ev s r o hr
  obtain ⟨t, ht, hbulkIn, hframe⟩ := applyOutcome_applied r hbound
  refine ⟨r, o, t, hr, ?_, hbanks, hops, ht, ?_, hframe⟩
  · rw [exec_of_cellInstr hi, hr, recordOutcome_next]
  · rw [hbulkIn, hbanks .ep1In (by decide)]

/-- Settles O26: both events apply the outcome of the cell, and EP2_TRCPT_OUT releases its bank after that. -/
theorem bulkEventsApplyTheOutcomeOfTheCell : Obligations.BulkEventsApplyTheOutcomeOfTheCell := by
  refine fun s i => ⟨fun hi => ?_, fun hi => ?_⟩
  · obtain ⟨r, o, v, hr, hcell, hbanks, hops, hv, hbulkIn, hvframe⟩ := cell_outcome_applied hi
    have hrelease := setBank_pushOp_frame v .ep2Out { v.bank .ep2Out with ready := true } (.release .ep2)
    have hframe := hvframe.trans hrelease
    refine ⟨withOutcome o r, o, _, hcell, rfl, ?_, { hframe.control with }, { hframe.bot with }, hframe.inputs, hframe.bytes,
      (hrelease.banks .ep1In (by decide)).trans hbulkIn, ?_, (hbanks.mono (by decide)).trans hframe.banks,
      hops.trans hframe.ops⟩
    · simp only [exec, execEp2TrcptOut, hr, hv, andThen_next]
      rfl
    · rw [pushOp_bank, setBank_bank_self, hvframe.banks .ep2Out (by decide), hbanks .ep2Out (by decide)]
  · obtain ⟨r, o, t, hr, hcell, hbanks, hops, ht, hbulkIn, hframe⟩ := cell_outcome_applied hi
    refine ⟨withOutcome o r, o, t, hcell, rfl, ?_, { hframe.control with }, { hframe.bot with }, hframe.inputs, hframe.bytes,
      hbulkIn, (hbanks.mono (by decide)).trans hframe.banks, hops.trans hframe.ops⟩
    simp only [exec, execEp1TrcptIn, hr, ht, andThen_next]

end Sys2Proof.Machine
end

section
/-! PROOFS. The BOT Error state: no host step, no request and no event but BUS_RESET writes `bot_state` there. -/

namespace Sys2Proof.Machine

-- ## Host steps

/-- The BOT engine's registers are out of the host's reach, a bus reset on the wire included (40_endpoint_bank.md R73 to R76). -/
theorem hostStep_sameBot {m : HostMove} {s t : State} (h : hostStep m s = .next t) : SameBot s t := by
  by_cases hm : m = .reset
  · subst hm
    cases h
    exact ⟨rfl, rfl, rfl, rfl⟩
  · exact (hostStep_packetFrame hm h).sameBot

-- ## The control engine

theorem getDescriptor_sameBot (d : BitVec 8) (len : BitVec 16) (s : State) :
    ∃ t, getDescriptor d len s = .next t ∧ SameBot s t := by
  cases hd : descriptorOf d with
  | some v =>
    obtain ⟨t, ht, hstaged⟩ := getDescriptor_known len s hd
    exact ⟨t, ht, hstaged.bot⟩
  | none =>
    obtain ⟨t, ht, hstalled⟩ := getDescriptor_unknown len s hd
    exact ⟨t, ht, hstalled.bot⟩

theorem raiseUnsupportedRequest_sameBot (s : State) : ∃ t, raiseUnsupportedRequest s = .next t ∧ SameBot s t := by
  obtain ⟨t, ht, hstalled⟩ := raiseUnsupportedRequest_stalled s
  exact ⟨t, ht, hstalled.bot⟩

/-- No request writes a BOT register, but for CLEAR_FEATURE on a failed command (42_control_engine.md R96 to R103). -/
theorem exec_decodeSetup_sameBot (r : SetupRequest) {s : State} (hnamed : BotNamed s) (hs : s.botState ≠ .stallPending) :
    ∃ t, exec (decodeSetup r) s = .next t ∧ SameBot s t := by
  unfold decodeSetup
  cases setupRow r with
  | classGetMaxLun =>
    obtain ⟨t, ht, hstaged⟩ := getMaxLunStagesZero r.value r.length s
    exact ⟨t, ht, hstaged.bot⟩
  | getDescriptorDevice | getDescriptorConfiguration | getDescriptorUnsupported => exact getDescriptor_sameBot _ r.length s
  | classInUnsupported | inUnsupported | outWithData => exact raiseUnsupportedRequest_sameBot s
  | setAddress =>
    obtain ⟨t, ht, -, -, -, -, -, -, -, hbot, -⟩ := setAddressOnlyLatches r.typeBits r.value r.index s
    exact ⟨t, ht, hbot⟩
  | setConfiguration =>
    obtain ⟨t, ht, -, -, -, -, -, -, hbot, -⟩ := setConfigurationConfiguresTheBulkBanks r.typeBits r.value r.index s
    exact ⟨t, ht, hbot⟩
  | clearFeatureEp81 =>
    obtain ⟨t, ht, -, -, -, -, -, hbot, -⟩ := (clearFeatureRegeneratesTheFailedCsw r.typeBits r.value s).2 hnamed hs
    exact ⟨t, ht, hbot⟩
  | outDefaultAck =>
    obtain ⟨t, ht, hack⟩ := zlpAckArmsAnEmptyPacket s
    exact ⟨t, ht, hack.bot⟩

/-- EP0_TRCPT_IN writes no BOT register (42_control_engine.md R85 to R88). -/
theorem exec_ep0TrcptIn_sameBot (s : State) : ∃ t, exec .ep0TrcptIn s = .next t ∧ SameBot s t := by
  obtain ⟨habsorbed, -⟩ := otherControlCompletionsAreAbsorbed s
  cases hstate : s.ep0State with
  | dataStageIn => exact ⟨_, exec_ep0TrcptIn_dataStageIn hstate, ⟨rfl, rfl, rfl, rfl⟩⟩
  | noDataStatus =>
    rw [exec_ep0TrcptIn_noDataStatus hstate]
    cases hvalid : s.addrPendingValid with
    | true => exact ⟨_, completeStatus_pending hvalid, ⟨rfl, rfl, rfl, rfl⟩⟩
    | false => exact ⟨_, completeStatus_idle hvalid, ⟨rfl, rfl, rfl, rfl⟩⟩
  | expectSetup => exact ⟨s, habsorbed (.inl hstate), .refl s⟩
  | dataStageOut => exact ⟨s, habsorbed (.inr hstate), .refl s⟩

-- ## The events

/-- In Error every event but BUS_RESET answers and leaves the BOT registers alone (43_bot_engine.md R113). -/
theorem exec_event_sameBot_of_error {e : Event} {s : State} (he : e ≠ .busReset) (hs : s.botState = .error) :
    ∃ t, exec e.instr s = .next t ∧ SameBot s t := by
  cases e with
  | busReset => exact absurd rfl he
  | ep0TrcptIn => exact exec_ep0TrcptIn_sameBot s
  | ep0TrcptOut => exact ⟨_, emit_release .ep0 s, ⟨rfl, rfl, rfl, rfl⟩⟩
  | ep0Setup =>
    obtain ⟨u, -, -, -, -, -, -, -, -, hbot, -, -, -, hrun⟩ := setupEventRunsTheDecodedRequest s
    have hu : u.botState = .error := hbot.botState.trans hs
    obtain ⟨t, ht, hkeep⟩ := exec_decodeSetup_sameBot (receivedSetup s) (s := u) (by simp [BotNamed, hu]) (by simp [hu])
    exact ⟨t, hrun.trans ht, hbot.trans hkeep⟩
  | ep1TrcptIn =>
    refine ⟨s, ?_, .refl s⟩
    simp only [Event.instr, exec, execEp1TrcptIn, handle_error _ hs, andThen_next, applyOutcome]
  | ep2TrcptOut =>
    have hrelease : exec .ep2TrcptOut s = emit (.release .ep2) s := by
      simp only [exec, execEp2TrcptOut, handle_error _ hs, andThen_next, applyOutcome]
    exact ⟨_, hrelease.trans (emit_release .ep2 s), ⟨rfl, rfl, rfl, rfl⟩⟩
  | ep0StallIn | ep0StallOut | ep1StallIn | ep2StallOut => exact ⟨s, rfl, .refl s⟩

/-- A bus reset taken starts the BOT engine anew (70_reset_and_hazards.md R148). -/
theorem execBusReset_botState {s t : State} (h : execBusReset s = .next t) : t.botState = .expectingCbw := by
  rw [execBusReset_eq] at h
  cases h
  rfl

/-- Settles O58, by the kind of the next move: of the moves only the event BUS_RESET writes `bot_state` in Error. -/
theorem errorIsLeftOnlyByBusReset : Obligations.ErrorIsLeftOnlyByBusReset := by
  intro s t hs h
  obtain ⟨m, u, hmove⟩ : ∃ m u, nextMove s = (m, u) := ⟨_, _, rfl⟩
  have hu : u.botState = .error := by rw [nextMove_frame hmove]; exact hs
  cases m with
  | idle =>
    rw [step_of_idle hmove] at h
    cases h
    exact .inl hu
  | host m =>
    rw [step_of_host hmove] at h
    exact .inl ((hostStep_sameBot h).botState.trans hu)
  | event e =>
    rw [step_of_event hmove] at h
    by_cases he : e = .busReset
    · subst he
      exact .inr ⟨⟨u, hmove⟩, execBusReset_botState h⟩
    · obtain ⟨v, hv, hkeep⟩ := exec_event_sameBot_of_error (s := takeEvent e u) he hu
      cases hv.symm.trans h
      exact .inl (hkeep.botState.trans hu)

end Sys2Proof.Machine
end

section
/-! PROOFS. The SCSI commands: what a staged data stage is, the packet taken as a CBW under either CBW_CHECK, and the packet that is
none. -/

namespace Sys2Proof.Machine

-- ## The commands run on their own

/-- Settles O30: the command is the staging of the CSW, whose status and residue are those of the acceptance. -/
theorem testUnitReadyStagesOnlyTheCsw : Obligations.TestUnitReadyStagesOnlyTheCsw := by
  intro s
  obtain ⟨t, ht, hstaged, hsend⟩ := recordOutcome_stageCsw s
  exact ⟨t, ht, hstaged, hsend, fun hstatus hremaining => by rw [hstaged.csw, hstatus, hremaining]⟩

/-- Where nothing is lost the decrement of `remaining` is the subtraction of words (10_state.md R26; log 11). -/
theorem ofNat_toNat_sub {w n : Nat} {r : BitVec w} (h : n ≤ r.toNat) : BitVec.ofNat w (r.toNat - n) = r - BitVec.ofNat w n := by
  rw [← BitVec.ofNat_sub_ofNat_of_le _ _ (h.trans_lt r.isLt) h, BitVec.ofNat_toNat, BitVec.setWidth_eq]

/-- Staging a response table stages its first bytes as the data stage (44_scsi_commands.md R122, R123). -/
theorem stageData_staged {d : List Byte} (s : State) (hd : d.length ≤ 64) :
    ∃ t, stageData d s = .next (t, .send (min s.cbw.dataTransferLength.toNat d.length)) ∧
      DataStaged (d.take (min s.cbw.dataTransferLength.toNat d.length)) s t :=
  ⟨_, stageData_eq d s hd,
    { stored := (writeBytes_stored s .ep1InBuf _).congr rfl rfl
      remaining := by
        rw [List.length_take_of_le (Nat.min_le_right _ _)]
        exact ofNat_toNat_sub
      botState := rfl
      cbw := rfl
      csw := rfl
      control := ⟨rfl, rfl, rfl, rfl, rfl⟩
      banks := fun _ _ => rfl
      inputs := ⟨rfl, rfl⟩
      ops := (List.append_nil _).symm }⟩

/-- The record of an outcome is no part of what a staged data stage is. -/
theorem DataStaged.withOutcome {v : List Byte} {s t : State} (h : DataStaged v s t) (o : BotOutcome) :
    DataStaged v s (withOutcome o t) :=
  { h with control := { h.control with } }

/-- A row that stages a response table shows its first bytes and asks for their number (44_scsi_commands.md R122, R123). -/
theorem recordOutcome_stageData {d : List Byte} (s : State) (hd : d.length ≤ 64) :
    ∃ t, recordOutcome (stageData d s) = .next t ∧ DataStaged (d.take (min s.cbw.dataTransferLength.toNat d.length)) s t ∧
      t.out.outcome = some (.send (min s.cbw.dataTransferLength.toNat d.length)) := by
  obtain ⟨t, ht, hstaged⟩ := stageData_staged s hd
  exact ⟨_, by rw [ht, recordOutcome_next], hstaged.withOutcome _, rfl⟩

/-- Settles O37: the command is the staging of the 36 bytes of INQUIRY_DATA. -/
theorem inquiryStagesThePrefix : Obligations.InquiryStagesThePrefix := fun s =>
  recordOutcome_stageData (d := inquiryData) s (by rw [inquiryData_length]; omega)

/-- The bytes of READ CAPACITY (10): the last block address 2047 and the block size 512, big-endian (44_scsi_commands.md R123). -/
theorem readcapData_eq : readcapData = [0x00, 0x00, 0x07, 0xFF, 0x00, 0x00, 0x02, 0x00] := by decide

/-- Settles O38: the command is the staging of the eight bytes of the capacity. -/
theorem readCapacityStagesTheCapacity : Obligations.ReadCapacityStagesTheCapacity := fun s =>
  readcapData_eq ▸ recordOutcome_stageData (d := readcapData) s (by rw [readcapData_length]; omega)

/-- Settles O39: the command writes `csw.status` and `bot_state` alone. -/
theorem unsupportedOpcodeFailsTheCommand : Obligations.UnsupportedOpcodeFailsTheCommand := fun _ s =>
  ⟨_, rfl, rfl, rfl, rfl, rfl, rfl,
    { control := ⟨rfl, rfl, rfl, rfl, rfl⟩
      banks := .refl _ s
      inputs := .refl s
      bytes := .refl s
      ops := .refl s }⟩

-- ## A packet that is no CBW

/-- The response to a malformed CBW enters Error and requests a bulk-IN STALL, and nothing else (60_exceptions.md R138). -/
theorem recordOutcome_raiseMalformedCbw (s : State) :
    ∃ t, recordOutcome (raiseMalformedCbw s) = .next t ∧ t.botState = .error ∧ t.out.outcome = some .requestStall ∧
      t.cbw = s.cbw ∧ t.csw = s.csw ∧ t.remaining = s.remaining ∧ OnlyBotChanges s t :=
  ⟨_, rfl, rfl, rfl, rfl, rfl, rfl, withOutcome_onlyBotChanges s .error .requestStall⟩

/-- The cell ExpectingCBW × BulkOut takes its packet under this hardware's CBW_CHECK (00_scope.md R10). -/
theorem exec_botExpectingCbwBulkOut (s : State) : exec .botExpectingCbwBulkOut s = recordOutcome (takeCbw .strict s) := rfl

/-- Settles O35: a packet that fails either test gets the response to a malformed CBW, as the row does in every state. -/
theorem malformedCbwEntersError : Obligations.MalformedCbwEntersError := by
  refine fun _ _ _ s => ⟨fun hbad => ?_, recordOutcome_raiseMalformedCbw s⟩
  rw [exec_botExpectingCbwBulkOut, takeCbw_strict, if_neg (not_and_or.mpr hbad)]
  exact recordOutcome_raiseMalformedCbw s

-- ## A packet taken as a CBW

/-- The operation code of a received CBW is its byte 15 (30_encoding.md R54). -/
theorem receivedCbw_opcode (s : State) : (receivedCbw s).opcode = s.byteAt .ep2OutBuf 15 := by
  simp [Cbw.opcode, receivedCbw]

/-- Settles O34: the packet passes both tests, and the row run is the one it decodes to. -/
theorem validCbwIsAcceptedAndRun : Obligations.ValidCbwIsAcceptedAndRun := by
  intro s hlength hsignature
  obtain ⟨t, o, ht, -, -⟩ := runScsi_answersWithin (cbwTaken s)
  have hrun : recordOutcome (runScsi (cbwTaken s)) = .next (withOutcome o t) := by rw [ht, recordOutcome_next]
  refine ⟨withOutcome o t, ?_, ?_⟩
  · rw [exec_botExpectingCbwBulkOut, takeCbw_strict, if_pos ⟨hlength, hsignature⟩, hrun]
  · rw [hsignature, ← receivedCbw_opcode]
    exact (runScsi_eq (cbwTaken s)).symm.trans hrun

/-- Under CBW_CHECK = None the packet is read as a CBW untested (44_scsi_commands.md R119, R120). -/
theorem takeCbw_off (s : State) : takeCbw .off s = runScsi (cbwTaken s) := by
  simp only [takeCbw, cbwValid, andThen_next, if_true]
  rw [memRead_ok _ _ _ _ (by omega), andThen_next, acceptCbw_eq]

/-- The row of an accepted CBW answers, keeps the CBW and does not enter Error (44_scsi_commands.md R121 to R124). -/
theorem runScsi_keepsCbw (s : State) : ∃ t o, runScsi s = .next (t, o) ∧ t.cbw = s.cbw ∧ t.botState ≠ .error := by
  have hdata {d : List Byte} (hd : d.length ≤ 64) :
      ∃ t o, stageData d s = .next (t, o) ∧ t.cbw = s.cbw ∧ t.botState ≠ .error := by
    obtain ⟨t, ht, hstaged⟩ := stageData_staged s hd
    exact ⟨t, _, ht, hstaged.cbw, by simp [hstaged.botState]⟩
  unfold runScsi
  cases scsiRow s.cbw.opcode with
  | testUnitReady =>
    obtain ⟨t, ht, hstaged⟩ := stageCsw_staged s
    exact ⟨t, _, ht, hstaged.cbw, by simp [hstaged.botState]⟩
  | inquiry => exact hdata (by rw [inquiryData_length]; omega)
  | readCapacity10 => exact hdata (by rw [readcapData_length]; omega)
  | unsupported => exact ⟨_, _, rfl, rfl, nofun⟩

/-- Settles O36: no test stands before the row of the packet, which stays within the BOT registers and the buffers. -/
theorem uncheckedPacketIsTakenAsCbw : Obligations.UncheckedPacketIsTakenAsCbw := by
  intro s
  obtain ⟨t, o, ht, hcbw, hstate⟩ := runScsi_keepsCbw (cbwTaken s)
  refine ⟨t, o, (takeCbw_off s).trans ht, hcbw, hstate, ?_, ?_, ?_⟩ <;> rw [runScsi_botFrame ht]
  · exact ⟨rfl, rfl, rfl, rfl, rfl⟩
  · exact fun _ _ => rfl
  · exact ⟨rfl, rfl⟩

end Sys2Proof.Machine
end

section
/-! PROOFS. The priority of the events: the engine's choice is the first pending event in the order of the codes. -/

namespace Sys2Proof.Machine

/-- The events in the order of their codes (30_encoding.md R55). -/
def eventsByCode : List Event :=
  [.busReset, .ep0TrcptIn, .ep0TrcptOut, .ep0Setup, .ep0StallIn, .ep0StallOut, .ep1TrcptIn, .ep1StallIn, .ep2TrcptOut,
    .ep2StallOut]

theorem mem_eventsByCode (e : Event) : e ∈ eventsByCode := by
  cases e <;> decide

theorem eventsByCode_pairwise : eventsByCode.Pairwise (fun a b => a.code ≤ b.code) := by
  decide

/-- The event taken next is the first of the order that is pending (60_exceptions.md R129). -/
theorem Flags.next_eq_find? (f : Flags) : f.next = eventsByCode.find? f.get := by
  simp only [Flags.next, eventsByCode, List.find?_cons, List.find?_nil, Flags.get, ← Bool.cond_eq_ite]
  rfl

/-- No two events have the same code (30_encoding.md R55). -/
theorem Event.code_inj {e x : Event} (h : e.code = x.code) : e = x :=
  Option.some_inj.mp (by rw [← eventOfCode_code e, h, eventOfCode_code])

/-- An event is pending and no pending event has a lower code. -/
def Flags.Lowest (f : Flags) (e : Event) : Prop := f.get e = true ∧ ∀ x, f.get x = true → e.code ≤ x.code

theorem Flags.Lowest.unique {f : Flags} {e x : Event} : f.Lowest e → f.Lowest x → e = x :=
  fun ⟨hepending, heleast⟩ ⟨hxpending, hxleast⟩ =>
    Event.code_inj (BitVec.le_antisymm (heleast x hxpending) (hxleast e hepending))

/-- The events before the one taken are not pending, and those after it have no lower code. -/
theorem Flags.lowest_of_next_eq_some {f : Flags} {e : Event} (h : f.next = some e) : f.Lowest e := by
  rw [Flags.next_eq_find?, List.find?_eq_some_iff_append] at h
  obtain ⟨hpending, before, after, horder, hbefore⟩ := h
  refine ⟨hpending, fun x hx => ?_⟩
  have hmem : x ∈ before ++ e :: after := horder ▸ mem_eventsByCode x
  have hsorted : (before ++ e :: after).Pairwise (fun a b => a.code ≤ b.code) := horder ▸ eventsByCode_pairwise
  obtain ⟨-, hlast, -⟩ := List.pairwise_append.mp hsorted
  rcases List.mem_append.mp hmem with hx' | hx'
  · exact absurd hx (by simpa using hbefore x hx')
  · rcases List.mem_cons.mp hx' with rfl | hx'
    · exact BitVec.le_refl _
    · exact List.rel_of_pairwise_cons hlast hx'

theorem Flags.next_eq_none_iff (f : Flags) : f.next = .none ↔ ∀ x, f.get x = false := by
  simp [Flags.next_eq_find?, mem_eventsByCode]

/-- Settles O52: the event taken is a lowest pending one, and there is only one such event to take. -/
theorem lowestPendingCodeIsTaken : Obligations.LowestPendingCodeIsTaken := by
  refine fun f => ⟨fun e => ⟨Flags.lowest_of_next_eq_some, fun he => ?_⟩, f.next_eq_none_iff⟩
  cases hnext : f.next with
  | none =>
    obtain ⟨hpending, -⟩ := he
    simp [f.next_eq_none_iff.mp hnext e] at hpending
  | some x => rw [(Flags.lowest_of_next_eq_some hnext).unique he]

end Sys2Proof.Machine
end

section
/-! PROOFS. The inputs of the engine: no instruction writes a pending flag or the host's script. -/

namespace Sys2Proof.Machine

-- ## Bank operations

theorem emit_sameInputs {op : BankOp} {s t : State} (h : emit op s = .next t) : SameInputs s t := by
  rw [emit_frame h]
  exact ⟨rfl, rfl⟩

theorem emitAll_sameInputs {ops : List BankOp} {s t : State} (h : emitAll ops s = .next t) : SameInputs s t := by
  induction ops generalizing s with
  | nil => cases h; exact .refl _
  | cons op ops ih =>
    obtain ⟨u, hu, ht⟩ := andThen_eq_next.mp h
    exact (emit_sameInputs hu).trans (ih ht)

theorem applyOutcome_sameInputs {o : BotOutcome} {s t : State} (h : applyOutcome o s = .next t) : SameInputs s t := by
  cases o with
  | send | requestStall => exact emit_sameInputs h
  | noData => cases h; exact .refl _

-- ## The BOT engine

theorem BotFrame.sameInputs {s t : State} (h : BotFrame s t) : SameInputs s t := by
  rw [h]
  exact ⟨rfl, rfl⟩

/-- A rule of the BOT engine run on its own adds a recorded outcome to what the rule does, and no input (log 1). -/
theorem recordOutcome_sameInputs {s t : State} {r : CellResult} (hr : ∀ {u o}, r = .next (u, o) → BotFrame s u)
    (h : recordOutcome r = .next t) : SameInputs s t := by
  obtain ⟨⟨u, o⟩, hu, ht⟩ := andThen_eq_next.mp h
  cases ht
  exact (hr hu).sameInputs

theorem execEp1TrcptIn_sameInputs {s t : State} (h : execEp1TrcptIn s = .next t) : SameInputs s t := by
  obtain ⟨⟨u, o⟩, hu, ht⟩ := andThen_eq_next.mp h
  exact (handle_botFrame hu).sameInputs.trans (applyOutcome_sameInputs ht)

theorem execEp2TrcptOut_sameInputs {s t : State} (h : execEp2TrcptOut s = .next t) : SameInputs s t := by
  obtain ⟨⟨u, o⟩, hu, h⟩ := andThen_eq_next.mp h
  obtain ⟨v, hv, ht⟩ := andThen_eq_next.mp h
  exact (handle_botFrame hu).sameInputs.trans ((applyOutcome_sameInputs hv).trans (emit_sameInputs ht))

-- ## The control engine

theorem zlpAck_sameInputs {s t : State} (h : zlpAck s = .next t) : SameInputs s t := by
  rw [zlpAck_eq] at h
  cases h
  exact ⟨rfl, rfl⟩

theorem inStage_sameInputs {v : List Byte} {s t : State} (h : inStage v s = .next t) : SameInputs s t := by
  obtain ⟨u, hu, hstaged⟩ := inStageStagesAndArms v s
  cases hu.symm.trans h
  exact hstaged.inputs

theorem raiseUnsupportedRequest_sameInputs {s t : State} (h : raiseUnsupportedRequest s = .next t) : SameInputs s t := by
  rw [raiseUnsupportedRequest_eq] at h
  cases h
  exact ⟨rfl, rfl⟩

theorem getDescriptor_sameInputs {d : BitVec 8} {len : BitVec 16} {s t : State} (h : getDescriptor d len s = .next t) :
    SameInputs s t := by
  obtain ⟨r, -, ht⟩ := andThen_eq_next.mp h
  cases r with
  | some v => exact inStage_sameInputs ht
  | none => exact raiseUnsupportedRequest_sameInputs ht

theorem exec_classGetMaxLun_sameInputs {value length : BitVec 16} {s t : State}
    (h : exec (.classGetMaxLun value length) s = .next t) : SameInputs s t := by
  obtain ⟨v, -, ht⟩ := andThen_eq_next.mp h
  exact inStage_sameInputs ht

theorem exec_setAddress_sameInputs {rt : BitVec 7} {value index : BitVec 16} {s t : State}
    (h : exec (.setAddress rt value index) s = .next t) : SameInputs s t := by
  obtain ⟨u, hu, -, -, -, -, -, -, -, -, hinputs, -⟩ := setAddressOnlyLatches rt value index s
  cases hu.symm.trans h
  exact hinputs

theorem exec_setConfiguration_sameInputs {rt : BitVec 7} {value index : BitVec 16} {s t : State}
    (h : exec (.setConfiguration rt value index) s = .next t) : SameInputs s t := by
  obtain ⟨u, hu, -, -, -, -, -, -, -, hinputs, -⟩ := setConfigurationConfiguresTheBulkBanks rt value index s
  cases hu.symm.trans h
  exact hinputs

theorem execClearFeatureEp81_sameInputs (rt : BitVec 7) (value : BitVec 16) {s t : State}
    (h : execClearFeatureEp81 rt value s = .next t) : SameInputs s t := by
  obtain ⟨u, hu, h⟩ := andThen_eq_next.mp h
  obtain ⟨⟨v, o⟩, hv, h⟩ := andThen_eq_next.mp h
  obtain ⟨w, hw, ht⟩ := andThen_eq_next.mp h
  exact (emit_sameInputs hu).trans ((handle_botFrame hv).sameInputs.trans
    ((applyOutcome_sameInputs hw).trans (zlpAck_sameInputs ht)))

/-- EP0_TRCPT_IN keeps the inputs in each `ep0_state` (42_control_engine.md R85 to R88). -/
theorem exec_ep0TrcptIn_sameInputs {s t : State} (h : exec .ep0TrcptIn s = .next t) : SameInputs s t := by
  obtain ⟨habsorbed, -⟩ := otherControlCompletionsAreAbsorbed s
  cases hstate : s.ep0State with
  | dataStageIn =>
    cases (exec_ep0TrcptIn_dataStageIn hstate).symm.trans h
    exact ⟨rfl, rfl⟩
  | noDataStatus =>
    obtain ⟨u, hu, -, -, -, -, -, -, -, -, hinputs, -⟩ := statusStageWritesThePendingAddress s hstate
    cases hu.symm.trans h
    exact hinputs
  | expectSetup =>
    cases (habsorbed (.inl hstate)).symm.trans h
    exact .refl _
  | dataStageOut =>
    cases (habsorbed (.inr hstate)).symm.trans h
    exact .refl _

theorem execBusReset_sameInputs {s t : State} (h : execBusReset s = .next t) : SameInputs s t := by
  obtain ⟨u, hu, ht⟩ := andThen_eq_next.mp h
  cases ht
  exact (emitAll_sameInputs hu).trans ⟨rfl, rfl⟩

-- ## Every instruction

/-- Every row but EP0_SETUP, whose meaning is another row's, keeps the inputs. -/
theorem exec_sameInputs_of_ne_ep0Setup {i : Instr} {s t : State} (hi : i ≠ .ep0Setup) (h : exec i s = .next t) :
    SameInputs s t := by
  cases i with
  | ep0Setup => exact absurd rfl hi
  -- SETUP rows
  | classGetMaxLun => exact exec_classGetMaxLun_sameInputs h
  | getDescriptorDevice | getDescriptorConfiguration | getDescriptorUnsupported => exact getDescriptor_sameInputs h
  | classInUnsupported | inUnsupported | outWithData => exact raiseUnsupportedRequest_sameInputs h
  | setAddress => exact exec_setAddress_sameInputs h
  | outDefaultAck => exact zlpAck_sameInputs h
  | setConfiguration => exact exec_setConfiguration_sameInputs h
  | clearFeatureEp81 rt value => exact execClearFeatureEp81_sameInputs rt value h
  -- EVENT rows
  | busReset => exact execBusReset_sameInputs h
  | ep0TrcptIn => exact exec_ep0TrcptIn_sameInputs h
  | ep0TrcptOut => exact emit_sameInputs (op := .release .ep0) h
  | ep1TrcptIn => exact execEp1TrcptIn_sameInputs h
  | ep2TrcptOut => exact execEp2TrcptOut_sameInputs h
  | ep0StallIn | ep0StallOut | ep1StallIn | ep2StallOut => cases h; exact .refl s
  -- CBW_OP and BOT_CELL rows
  | scsiInquiry | scsiReadCapacity10 => exact recordOutcome_sameInputs (stageData_botFrame (by simp)) h
  | botExpectingCbwBulkOut => exact recordOutcome_sameInputs takeCbw_botFrame h
  | scsiTestUnitReady | botDataInPendingBulkInComplete | botExpectingDataOutBulkOut | botStallPendingStallCleared =>
    exact recordOutcome_sameInputs stageCsw_botFrame h
  | scsiInvalidCbw | scsiUnsupported | botExpectingCbwBulkInComplete | botExpectingCbwStallCleared | botDataInPendingBulkOut
  | botDataInPendingStallCleared | botExpectingDataOutBulkInComplete | botExpectingDataOutStallCleared | botCswPendingBulkOut
  | botCswPendingBulkInComplete | botCswPendingStallCleared | botStallPendingBulkOut | botStallPendingBulkInComplete
  | botErrorBulkOut | botErrorBulkInComplete | botErrorStallCleared => cases h; exact ⟨rfl, rfl⟩
  -- OP rows
  | writeAddress => exact emit_sameInputs (op := .writeAddress _) h
  | configure | armSend | release | stall | clearStall =>
    simp only [exec, execConfigure, execArmSend, execRelease, execStall, execClearStall] at h
    split at h
    · exact emit_sameInputs h
    · cases h
  | bytesReceived =>
    simp only [exec, execBytesReceived] at h
    split at h <;> cases h
    exact ⟨rfl, rfl⟩

/-- A SETUP packet decodes to a request and never to the event that decodes it (30_encoding.md R60). -/
theorem decodeSetup_ne_ep0Setup (r : SetupRequest) : decodeSetup r ≠ .ep0Setup := by
  unfold decodeSetup
  cases setupRow r <;> nofun

/-- Settles O56: EP0_SETUP is its preamble, which acts on EP0 alone, and one of the other rows. -/
theorem noInstructionRaisesAnEvent : Obligations.NoInstructionRaisesAnEvent := by
  intro i s t h
  by_cases hi : i = .ep0Setup
  · subst hi
    have hrun := (execEp0Setup_eq s).symm.trans h
    exact (afterPreamble_frame s).inputs.trans (exec_sameInputs_of_ne_ep0Setup (decodeSetup_ne_ep0Setup _) hrun)
  · exact exec_sameInputs_of_ne_ep0Setup hi h

end Sys2Proof.Machine
end

section
/-! PROOFS. Progress: under the invariant every move a host may ask for answers, and so does every event. -/

namespace Sys2Proof.Machine

-- ## The host's lines

theorem ScriptAllowed.of_subset {s t : State} (hs : ScriptAllowed s) (h : t.script ⊆ s.script) : ScriptAllowed t :=
  fun l hl => hs l (h hl)

/-- An OUT packet the host may send fits and has an endpoint (40_endpoint_bank.md R77). -/
theorem HostMove.allowed_out {k : Nat} {d : List Byte} (h : HostMove.allowed (.out k d) = true) :
    (∃ ep, hostOutEp k = some ep) ∧ d.length ≤ 64 := by
  obtain ⟨hk, hd⟩ : (k = 0 ∨ k = 2) ∧ d.length ≤ 64 := by simpa [HostMove.allowed] using h
  refine ⟨?_, hd⟩
  rcases hk with rfl | rfl
  · exact ⟨.ep0, rfl⟩
  · exact ⟨.ep2, rfl⟩

/-- An IN token the host may send has an endpoint (40_endpoint_bank.md R77). -/
theorem HostMove.allowed_inn {k : Nat} (h : HostMove.allowed (.inn k) = true) : ∃ ep, hostInEp k = some ep := by
  obtain rfl | rfl : k = 0 ∨ k = 1 := by simpa [HostMove.allowed] using h
  · exact ⟨.ep0, rfl⟩
  · exact ⟨.ep1, rfl⟩

/-- A host step the host may take answers where every byte count fits a packet, and keeps the lines still to run
(40_endpoint_bank.md R73 to R77). -/
theorem hostStep_answers {m : HostMove} {s : State} (hm : HostMove.allowed m = true)
    (hcounts : ∀ b, (s.bank b).byteCount.toNat ≤ 64) : ∃ t, hostStep m s = .next t ∧ t.script = s.script := by
  cases m with
  | setup p =>
    obtain ⟨hconfigured, hunconfigured⟩ := hostSetupIsAlwaysTaken p s (by simpa [HostMove.allowed] using hm)
    cases hc : (s.bank .ep0Out).configured with
    | true =>
      obtain ⟨t, ht, -, -, -, -, -, -, hscript, -⟩ := hconfigured hc
      exact ⟨t, ht, hscript⟩
    | false =>
      obtain ⟨t, ht, -, -, -, -, ⟨-, hscript⟩, -⟩ := hunconfigured hc
      exact ⟨t, ht, hscript⟩
  | out k d =>
    obtain ⟨⟨ep, hk⟩, hd⟩ := HostMove.allowed_out hm
    obtain ⟨t, ht, -, -, hscript, -⟩ := hostOutFollowsTheBank k ep d s hk hd
    exact ⟨t, ht, hscript⟩
  | inn k =>
    obtain ⟨ep, hk⟩ := HostMove.allowed_inn hm
    obtain ⟨t, ht, -, -, hscript, -⟩ := hostInFollowsTheBank k ep s hk (hcounts _)
    exact ⟨t, ht, hscript⟩
  | reset => exact ⟨_, rfl, rfl⟩

-- ## The events

/-- The table has a cell for every event in each of the six named states (43_bot_engine.md R105). -/
theorem exists_cellInstr (ev : BotEvent) {s : State} (hs : BotNamed s) : ∃ i, cellInstr s.botState ev = some i := by
  obtain ⟨h6, h7⟩ := hs
  cases hb : s.botState with
  | reserved6 => exact absurd hb h6
  | reserved7 => exact absurd hb h7
  | expectingCbw | dataInPending | expectingDataOut | cswPending | stallPending | error => cases ev <;> exact ⟨_, rfl⟩

/-- In a named BOT state every event answers (60_exceptions.md R139). -/
theorem exec_event_answers (e : Event) {s : State} (hs : BotNamed s) : ∃ t, exec e.instr s = .next t := by
  cases e with
  | busReset => exact ⟨_, execBusReset_eq s⟩
  | ep0TrcptIn =>
    obtain ⟨t, ht, -⟩ := exec_ep0TrcptIn_sameBot s
    exact ⟨t, ht⟩
  | ep0TrcptOut => exact ⟨_, emit_release .ep0 s⟩
  | ep0Setup =>
    obtain ⟨t, -, -, ht, -⟩ := setupTakesExactlyOneTerminalAction s hs
    exact ⟨t, ht⟩
  | ep1TrcptIn =>
    obtain ⟨i, hi⟩ := exists_cellInstr .bulkInComplete hs
    obtain ⟨-, -, t, -, -, ht, -⟩ := (bulkEventsApplyTheOutcomeOfTheCell s i).2 hi
    exact ⟨t, ht⟩
  | ep2TrcptOut =>
    obtain ⟨i, hi⟩ := exists_cellInstr .bulkOut hs
    obtain ⟨-, -, t, -, -, ht, -⟩ := (bulkEventsApplyTheOutcomeOfTheCell s i).1 hi
    exact ⟨t, ht⟩
  | ep0StallIn | ep0StallOut | ep1StallIn | ep2StallOut => exact ⟨s, rfl⟩

-- ## The step

/-- Settles O55, by the kind of the next move: a host step is one of the allowed lines and meets byte counts that fit, an event meets
a named BOT state, and no move adds a line. -/
theorem noStepStopsUnderTheInvariant : Obligations.NoStepStopsUnderTheInvariant := by
  intro s hs hscript
  rcases nextMove_cases s with ⟨u, hmove, -, hlines⟩ | ⟨m, u, hmove, hu, hm, hlines⟩ | ⟨e, u, hmove, -, hu, hlines⟩
  · exact ⟨u, step_of_idle hmove, hscript.of_subset hlines⟩
  · have hcounts : ∀ b, (u.bank b).byteCount.toNat ≤ 64 := by rw [hu]; exact hs.counts
    obtain ⟨t, ht, hkeep⟩ := hostStep_answers (hscript _ hm) hcounts
    exact ⟨t, (step_of_host hmove).trans ht, hscript.of_subset (hkeep ▸ hlines)⟩
  · have hnamed : BotNamed (takeEvent e u) := by rw [hu]; exact hs.bot.1
    obtain ⟨t, ht⟩ := exec_event_answers e hnamed
    obtain ⟨-, hkeep⟩ := noInstructionRaisesAnEvent _ _ _ ht
    exact ⟨t, (step_of_event hmove).trans ht, hscript.of_subset (hkeep ▸ hlines)⟩

end Sys2Proof.Machine
end

section
/-! PROOFS. The bus reset taken: the banks its three operations leave on endpoint 0, and the registers it starts anew. -/

namespace Sys2Proof.Machine

/-- The state in which BUS_RESET resets the registers: its three operations done (70_reset_and_hazards.md R148). -/
def ep0Configured (s : State) : State :=
  (releaseBank .ep0 (((s.setBank .ep0Out (.configuredAs .control .ep0OutBuf 64)).pushOp
    (.configure .ep0Out .control .ep0OutBuf 64)).setBank .ep0In (.configuredAs .control .ep0InBuf 64) |>.pushOp
    (.configure .ep0In .control .ep0InBuf 64))).pushOp (.release .ep0)

theorem exec_busReset_eq (s : State) : exec .busReset s = .next (resetRegisters (ep0Configured s)) := execBusReset_eq s

theorem ep0Configured_bank_ep0Out (s : State) :
    (ep0Configured s).bank .ep0Out = { BankDesc.configuredAs .control .ep0OutBuf 64 with ready := true } := by
  simp [ep0Configured]

theorem ep0Configured_bank_ep0In (s : State) :
    (ep0Configured s).bank .ep0In = .configuredAs .control .ep0InBuf 64 := by
  simp [ep0Configured]

/-- The operations of a bus reset write the two EP0 banks and nothing else. -/
theorem ep0Configured_frame (s : State) :
    OnlyBanksChange [.ep0Out, .ep0In, .ep0Out]
      [.configure .ep0Out .control .ep0OutBuf 64, .configure .ep0In .control .ep0InBuf 64, .release .ep0] s (ep0Configured s) :=
  (setBank_pushOp_frame s .ep0Out _ _).trans ((setBank_pushOp_frame _ .ep0In _ _).trans (setBank_pushOp_frame _ .ep0Out _ _))

/-- Settles O25: the three operations write the EP0 banks, and what follows them writes only the registers named. -/
theorem busResetRestoresTheEngines : Obligations.BusResetRestoresTheEngines := by
  intro s
  have hframe := ep0Configured_frame s
  have hbanks : SameBanksBut [.ep0Out, .ep0In] s (ep0Configured s) := hframe.banks.mono (by decide)
  exact ⟨_, exec_busReset_eq s, ep0Configured_bank_ep0Out s, ep0Configured_bank_ep0In s, rfl, rfl, rfl, rfl, rfl, rfl, rfl, rfl,
    hframe.control.devAddr, hbanks, hframe.inputs, hframe.bytes, hframe.ops⟩

end Sys2Proof.Machine
end

section
/-! PROOFS. The encoding both ways: what a SETUP request of each direction is, and for every format what decoding an encoded
instruction and encoding a decoded word give. -/

namespace Sys2Proof

-- ## SETUP requests by direction

/-- The class-request type 0xA1 is device-to-host with bits 6:0 at 0x21 (30_encoding.md R60). -/
theorem classType_in {rt : BitVec 7} : 1#1 ++ rt = 0xA1#8 ↔ rt = 0x21#7 := by
  revert rt; decide

theorem classType_out {rt : BitVec 7} : 0#1 ++ rt ≠ 0xA1#8 := by
  revert rt; decide

/-- A bmRequestType is its direction bit over its bits 6:0 (30_encoding.md R52). -/
theorem requestType_cases (x : BitVec 8) : ∃ rt : BitVec 7, x = 1#1 ++ rt ∨ x = 0#1 ++ rt := by
  have hsplit : x.extractLsb' 7 1 ++ x.extractLsb' 0 7 = x :=
    (BitVec.extractLsb'_append_extractLsb'_eq_extractLsb' rfl).trans BitVec.extractLsb'_eq_self
  refine ⟨x.extractLsb' 0 7, ?_⟩
  rcases BitVec.eq_zero_or_eq_one (x.extractLsb' 7 1) with h | h <;> rw [h] at hsplit
  · exact .inr hsplit.symm
  · exact .inl hsplit.symm

/-- The two instructions a class request to interface 0 can be (30_encoding.md R60). -/
theorem decodeSetup_class (request : BitVec 8) (value length : BitVec 16) :
    decodeSetup ⟨0xA1, request, value, 0, length⟩ =
      if request = 0xFE then .classGetMaxLun value length else .classInUnsupported request value length := by
  by_cases hrequest : request = 0xFE#8 <;> simp [decodeSetup, setupRow, hrequest]

/-- The four instructions any other device-to-host request can be (30_encoding.md R60). -/
theorem decodeSetup_in {rt : BitVec 7} {index : BitVec 16} (hclass : isClassInterface0 rt index = false)
    (request : BitVec 8) (value length : BitVec 16) :
    decodeSetup ⟨1#1 ++ rt, request, value, index, length⟩ =
      if request = 6 then
        if descTypeOf value = 1 then .getDescriptorDevice rt (descIndexOf value) index length
        else if descTypeOf value = 2 then .getDescriptorConfiguration rt (descIndexOf value) index length
        else .getDescriptorUnsupported rt (descTypeOf value) (descIndexOf value) index length
      else .inUnsupported rt request value index length := by
  have hother : ¬(rt = 0x21#7 ∧ index = 0#16) := by simpa [isClassInterface0, imp_iff_not_or] using hclass
  have hmaxLun : ¬((rt = 0x21#7 ∧ request = 0xFE#8) ∧ index = 0#16) := fun ⟨⟨hrt, _⟩, hindex⟩ => hother ⟨hrt, hindex⟩
  by_cases hrequest : request = 6#8
  · by_cases hdevice : descTypeOf value = 1#8
    · simp [decodeSetup, setupRow, classType_in, hother, hrequest, hdevice]
    · by_cases hconfiguration : descTypeOf value = 2#8 <;>
        simp [decodeSetup, setupRow, classType_in, hother, hrequest, hdevice, hconfiguration]
  · simp [decodeSetup, setupRow, classType_in, hother, hmaxLun, hrequest]

/-- The five instructions a host-to-device request can be (30_encoding.md R60). -/
theorem decodeSetup_out (rt : BitVec 7) (request : BitVec 8) (value index length : BitVec 16) :
    decodeSetup ⟨0#1 ++ rt, request, value, index, length⟩ =
      if length = 0 then
        if request = 5 then .setAddress rt value index
        else if request = 9 then .setConfiguration rt value index
        else if request = 1 ∧ index = 0x0081 then .clearFeatureEp81 rt value
        else .outDefaultAck rt request value index
      else .outWithData rt request value index length := by
  by_cases hlength : length = 0#16
  · by_cases haddress : request = 5#8
    · simp [decodeSetup, setupRow, classType_out, hlength, haddress]
    · by_cases hconfiguration : request = 9#8
      · simp [decodeSetup, setupRow, classType_out, hlength, hconfiguration]
      · by_cases hfeature : request = 1#8 ∧ index = 0x0081#16 <;>
          simp [decodeSetup, setupRow, classType_out, hlength, haddress, hconfiguration, hfeature]
  · simp [decodeSetup, setupRow, classType_out, hlength]

/-- A SETUP word decodes as its five fields do (30_encoding.md R51). -/
theorem decode_encodeSetup (requestType request : BitVec 8) (value index length : BitVec 16) :
    decode (encodeSetup requestType request value index length) =
      .ok (decodeSetup ⟨requestType, request, value, index, length⟩) := by
  rw [encodeSetup, decode, ofWord_word]

-- ## CBW_OP words

/-- A packet that passes both tests is the row of its operation code (30_encoding.md R61). -/
theorem decodeCbw_valid (opcode : BitVec 8) :
    decodeCbw .strict 31 usbcSignature opcode =
      if opcode = 0x00 then .scsiTestUnitReady
      else if opcode = 0x12 then .scsiInquiry
      else if opcode = 0x25 then .scsiReadCapacity10
      else .scsiUnsupported opcode := by
  simp only [decodeCbw, cbwAccepted, scsiRow, beq_self_eq_true, Bool.and_self, if_true, beq_iff_eq]
  split_ifs <;> rfl

/-- A packet that fails either test is an invalid CBW (30_encoding.md R61). -/
theorem decodeCbw_invalid {outLen signature : BitVec 32} (h : ¬(outLen = 31 ∧ signature = usbcSignature)) (opcode : BitVec 8) :
    decodeCbw .strict outLen signature opcode = .scsiInvalidCbw outLen signature opcode :=
  if_neg (by simpa [cbwAccepted] using h)

theorem decode_cbwOp (outLen signature : BitVec 32) (opcode : BitVec 8) :
    decode (.cbwOp outLen signature opcode) = .ok (decodeCbw .strict outLen signature opcode) := rfl

-- ## Decoding what was encoded

/-- Every well-formed instruction is read back from its raw word. -/
theorem decode_encode (i : Instr) (hi : i.wf = true) : decode (encode i) = .ok i := by
  cases i with
  -- SETUP rows
  | classGetMaxLun value length =>
    rw [encode, decode_encodeSetup, decodeSetup_class]
    rfl
  | classInUnsupported request value length =>
    have hrequest : request ≠ 0xFE := by simpa [Instr.wf] using hi
    rw [encode, decode_encodeSetup, decodeSetup_class, if_neg hrequest]
  | getDescriptorDevice rt descIndex index length | getDescriptorConfiguration rt descIndex index length =>
    have hclass : isClassInterface0 rt index = false := by simpa [Instr.wf] using hi
    rw [encode, decode_encodeSetup, decodeSetup_in hclass, descType_append, descIndex_append]
    rfl
  | getDescriptorUnsupported rt descType descIndex index length =>
    obtain ⟨hclass, hdevice, hconfiguration⟩ : isClassInterface0 rt index = false ∧ descType ≠ 1 ∧ descType ≠ 2 := by
      simpa [Instr.wf, and_assoc] using hi
    rw [encode, decode_encodeSetup, decodeSetup_in hclass, descType_append, descIndex_append, if_pos rfl, if_neg hdevice,
      if_neg hconfiguration]
  | inUnsupported rt request value index length =>
    obtain ⟨hclass, hrequest⟩ : isClassInterface0 rt index = false ∧ request ≠ 6 := by
      simpa [Instr.wf] using hi
    rw [encode, decode_encodeSetup, decodeSetup_in hclass, if_neg hrequest]
  | setAddress | setConfiguration | clearFeatureEp81 =>
    rw [encode, decode_encodeSetup, decodeSetup_out]
    rfl
  | outDefaultAck rt request value index =>
    obtain ⟨haddress, hconfiguration, hfeature⟩ : request ≠ 5 ∧ request ≠ 9 ∧ ¬(request = 1 ∧ index = 0x0081) := by
      simpa [Instr.wf, and_assoc, ← imp_iff_not_or] using hi
    rw [encode, decode_encodeSetup, decodeSetup_out, if_pos rfl, if_neg haddress, if_neg hconfiguration, if_neg hfeature]
  | outWithData rt request value index length =>
    have hlength : length ≠ 0 := by simpa [Instr.wf] using hi
    rw [encode, decode_encodeSetup, decodeSetup_out, if_neg hlength]
  -- CBW_OP rows
  | scsiInvalidCbw outLen signature opcode =>
    have hbad : ¬(outLen = 31 ∧ signature = usbcSignature) := by
      simpa [Instr.wf, usbcSignature, ← imp_iff_not_or] using hi
    rw [encode, decode_cbwOp, decodeCbw_invalid hbad]
  | scsiTestUnitReady | scsiInquiry | scsiReadCapacity10 => exact congrArg Except.ok (decodeCbw_valid _)
  | scsiUnsupported opcode =>
    obtain ⟨hready, hinquiry, hcapacity⟩ : opcode ≠ 0x00 ∧ opcode ≠ 0x12 ∧ opcode ≠ 0x25 := by
      simpa [Instr.wf, and_assoc] using hi
    rw [encode, decode_cbwOp, decodeCbw_valid, if_neg hready, if_neg hinquiry, if_neg hcapacity]
  -- OP rows
  | configure ep dir ty buf mps =>
    obtain ⟨-, hmps⟩ := Bool.and_eq_true_iff.mp hi
    have hcount : (BitVec.ofNat 32 mps).toNat = mps := Nat.mod_eq_of_lt (of_decide_eq_true hmps)
    cases ty <;> exact (if_pos (by rwa [dirOfCode_code, bufOfCode_code, hcount])).trans
      (by rw [dirOfCode_code, bufOfCode_code, hcount])
  | armSend ep n =>
    obtain ⟨-, hn⟩ := Bool.and_eq_true_iff.mp hi
    have hcount : (BitVec.ofNat 32 n).toNat = n := Nat.mod_eq_of_lt (of_decide_eq_true hn)
    exact (if_pos (by rwa [hcount])).trans (by rw [hcount])
  | bytesReceived | release => exact if_pos hi
  | stall ep dir | clearStall ep dir =>
    cases dir <;> exact if_pos hi
  -- WriteAddress, and the EVENT and BOT_CELL rows, whose words have no operand
  | _ => rfl

/-- Settles O46, by the format of the instruction's row. -/
theorem decodeReadsBackEveryEncoding : Obligations.DecodeReadsBackEveryEncoding := decode_encode

-- ## Encoding what was decoded

theorem value_of_descType {value : BitVec 16} {t : BitVec 8} (h : descTypeOf value = t) : t ++ descIndexOf value = value := by
  rw [← h, value_split]

/-- `i` is well-formed and `raw` is its word. -/
def Encodes (i : Instr) (raw : Raw) : Prop := encode i = raw ∧ i.wf = true

/-- A class request's word is that of the instruction it decodes to. -/
theorem decodeSetup_class_encodes (request : BitVec 8) (value length : BitVec 16) :
    Encodes (decodeSetup ⟨0xA1, request, value, 0, length⟩) (encodeSetup 0xA1 request value 0 length) := by
  rw [decodeSetup_class]
  split_ifs with hrequest
  · exact ⟨by rw [hrequest, encode], rfl⟩
  · exact ⟨rfl, by simpa [Instr.wf] using hrequest⟩

/-- The word of any other device-to-host request is that of the instruction it decodes to. -/
theorem decodeSetup_in_encodes {rt : BitVec 7} {index : BitVec 16} (hclass : isClassInterface0 rt index = false)
    (request : BitVec 8) (value length : BitVec 16) :
    Encodes (decodeSetup ⟨1#1 ++ rt, request, value, index, length⟩) (encodeSetup (1#1 ++ rt) request value index length) := by
  rw [decodeSetup_in hclass]
  split_ifs with hrequest hdevice hconfiguration
  · have hvalue : 1#8 ++ descIndexOf value = value := value_of_descType hdevice
    exact ⟨by rw [encode, hrequest, hvalue], by simp [Instr.wf, hclass]⟩
  · have hvalue : 2#8 ++ descIndexOf value = value := value_of_descType hconfiguration
    exact ⟨by rw [encode, hrequest, hvalue], by simp [Instr.wf, hclass]⟩
  · exact ⟨by rw [encode, hrequest, value_split], by simpa [Instr.wf, hclass] using ⟨hdevice, hconfiguration⟩⟩
  · exact ⟨rfl, by simpa [Instr.wf, hclass] using hrequest⟩

/-- The word of a host-to-device request is that of the instruction it decodes to. -/
theorem decodeSetup_out_encodes (rt : BitVec 7) (request : BitVec 8) (value index length : BitVec 16) :
    Encodes (decodeSetup ⟨0#1 ++ rt, request, value, index, length⟩) (encodeSetup (0#1 ++ rt) request value index length) := by
  rw [decodeSetup_out]
  split_ifs with hlength haddress hconfiguration hfeature
  · exact ⟨by rw [encode, haddress, hlength], rfl⟩
  · exact ⟨by rw [encode, hconfiguration, hlength], rfl⟩
  · exact ⟨by rw [encode, hfeature.1, hfeature.2, hlength], rfl⟩
  · have hother : request ≠ 5 ∧ request ≠ 9 ∧ (request ≠ 1 ∨ index ≠ 0x0081) :=
      ⟨haddress, hconfiguration, not_and_or.mp hfeature⟩
    exact ⟨by rw [encode, hlength], by simpa [Instr.wf, and_assoc] using hother⟩
  · exact ⟨rfl, by simpa [Instr.wf] using hlength⟩

/-- Every SETUP word is that of the instruction it decodes to (30_encoding.md R51, R60). -/
theorem decodeSetup_encodes (w : BitVec 64) : Encodes (decodeSetup (SetupRequest.ofWord w)) (.setup w) := by
  rw [← congrArg Raw.setup (word_ofWord w)]
  obtain ⟨requestType, request, value, index, length⟩ := SetupRequest.ofWord w
  obtain ⟨rt, rfl | rfl⟩ := requestType_cases requestType
  · cases hclass : isClassInterface0 rt index with
    | false => exact decodeSetup_in_encodes hclass request value length
    | true =>
      obtain ⟨rfl, rfl⟩ : rt = 0x21 ∧ index = 0 := by simpa [isClassInterface0] using hclass
      exact decodeSetup_class_encodes request value length
  · exact decodeSetup_out_encodes rt request value index length

/-- Every CBW_OP word is that of the instruction it decodes to (30_encoding.md R61). -/
theorem decodeCbw_encodes (outLen signature : BitVec 32) (opcode : BitVec 8) :
    Encodes (decodeCbw .strict outLen signature opcode) (.cbwOp outLen signature opcode) := by
  by_cases hvalid : outLen = 31 ∧ signature = usbcSignature
  · obtain ⟨rfl, rfl⟩ := hvalid
    rw [decodeCbw_valid]
    split_ifs with hready hinquiry hcapacity
    · exact ⟨by rw [encode, hready], rfl⟩
    · exact ⟨by rw [encode, hinquiry], rfl⟩
    · exact ⟨by rw [encode, hcapacity], rfl⟩
    · exact ⟨rfl, by simpa [Instr.wf, and_assoc] using ⟨hready, hinquiry, hcapacity⟩⟩
  · rw [decodeCbw_invalid hvalid]
    exact ⟨rfl, by simpa [Instr.wf, usbcSignature, imp_iff_not_or] using hvalid⟩

theorem eventOfCode_eq_some {c : BitVec 4} {e : Event} (h : eventOfCode c = some e) : c = e.code := by
  have hcode : ∀ c : BitVec 4, ∀ e ∈ eventOfCode c, c = e.code := by decide
  exact hcode c e h

theorem event_encodes (e : Event) : Encodes e.instr (.event e.code) := by
  cases e <;> exact ⟨rfl, rfl⟩

theorem cellInstr_encodes {st : BotState} {ev : BotEvent} {i : Instr} (h : cellInstr st ev = some i) :
    Encodes i (.botCell (botCellWord st ev)) := by
  cases st <;> cases ev <;> cases h <;> exact ⟨rfl, rfl⟩

/-- The word of a cell is made of its state and its event (30_encoding.md R56). -/
theorem botCellWord_of_fields {v : BitVec 5} {ev : BotEvent} (h : botEventOfCode (v.extractLsb' 0 2) = some ev) :
    botCellWord (botStateOfCode (v.extractLsb' 2 3)) ev = v := by
  have hword : ∀ v : BitVec 5, ∀ ev ∈ botEventOfCode (v.extractLsb' 0 2),
      botCellWord (botStateOfCode (v.extractLsb' 2 3)) ev = v := by decide
  exact hword v ev h

/-- Outside the OP format every word is that of the instruction it decodes to. -/
theorem decode_encodes {raw : Raw} {i : Instr} (hraw : raw.format ≠ .op) (h : decode raw = .ok i) : Encodes i raw := by
  cases raw with
  | setup w => cases h; exact decodeSetup_encodes w
  | cbwOp outLen signature opcode => cases h; exact decodeCbw_encodes outLen signature opcode
  | event code =>
    simp only [decode] at h
    split at h
    case h_1 e he => cases h; rw [eventOfCode_eq_some he]; exact event_encodes e
    case h_2 => cases h
  | botCell v =>
    simp only [decode] at h
    split at h
    case h_1 ev hev =>
      split at h
      case h_1 i hi => cases h; rw [← botCellWord_of_fields hev]; exact cellInstr_encodes hi
      case h_2 => cases h
    case h_2 => cases h
  | op => exact absurd rfl hraw

/-- Settles O47, by the format of the word. -/
theorem encodeReturnsEveryDecodedWord : Obligations.EncodeReturnsEveryDecodedWord := fun _ _ => decode_encodes

-- ## The words of the spec

/-- Settles O49: the words are closed, and the reserved codes are few. -/
theorem writtenOutWordsDecode : Obligations.WrittenOutWordsDecode := by
  refine ⟨rfl, rfl, rfl, rfl, rfl, rfl, rfl, ?_, ?_, rfl⟩ <;> decide

end Sys2Proof
end

section
/-! PROOFS. The bank operations that write no bank: the read of a byte count, and the refusals where no bank is named. -/

namespace Sys2Proof.Machine

/-- Settles O4: the count is recorded and nothing else is written. -/
theorem bytesReceivedReadsTheCount : Obligations.BytesReceivedReadsTheCount := by
  intro ep e s he
  have hrun : exec (.bytesReceived ep) s = .next { s with out := { s.out with received := some (bytesReceivedOn e s) } } := by
    simp only [exec, execBytesReceived, he]
  exact ⟨_, hrun, rfl, .refl _ s, ⟨rfl, rfl, rfl, rfl, rfl⟩, ⟨rfl, rfl, rfl, rfl⟩, .refl s, .refl s, .refl s⟩

/-- Settles O9: each operation looks its bank up before it does anything. -/
theorem unnamedBankIsRefused : Obligations.UnnamedBankIsRefused := by
  refine fun ep dir s => ⟨fun hbank => ⟨fun ty buf mps => ?_, ?_, ?_⟩, fun hin n => ?_, fun hout => ⟨?_, ?_⟩⟩
  · simp only [exec, execConfigure, hbank]
  · simp only [exec, execStall, hbank]
  · simp only [exec, execClearStall, hbank]
  · simp only [exec, execArmSend, hin]
  · simp only [exec, execRelease, hout]
  · simp only [exec, execBytesReceived, hout]

end Sys2Proof.Machine
end

section
/-! PROOFS. The invariant under each update of the state: one bank replaced, a flag raised or cleared, a buffer written, and the
registers of an engine. -/

namespace Sys2Proof.Machine

-- ## When a bank may be ready and a flag raised

/-- A control transfer is in the stage of an IN packet (42_control_engine.md R88). -/
def ControlStage (s : State) : Prop := s.ep0State = .dataStageIn ∨ s.ep0State = .noDataStatus

/-- A bulk-IN packet may be armed or just taken (43_bot_engine.md R111). -/
def BulkStage (s : State) : Prop := s.botState = .dataInPending ∨ s.botState = .cswPending ∨ s.botState = .error

/-- What the invariant asks of the rest of the state where a bank is ready. -/
def MayBeReady (s : State) : Bank → Prop
  | .ep0In => ControlStage s ∧ s.flags.ep0TrcptIn = false ∧ s.flags.ep0Setup = false
  | .ep1In => BulkStage s ∧ s.flags.ep1TrcptIn = false
  | .ep0Out | .ep2Out => True

/-- What the invariant asks of the rest of the state where an event other than a bus reset becomes pending. -/
def MayBeRaised (s : State) : Event → Prop
  | .ep0TrcptIn => ControlStage s ∧ (s.bank .ep0In).ready = false
  | .ep0Setup => (s.bank .ep0In).ready = false
  | .ep1TrcptIn => BulkStage s ∧ (s.bank .ep1In).ready = false
  | .busReset | .ep2StallOut => False
  | .ep0TrcptOut | .ep0StallIn | .ep0StallOut | .ep1StallIn | .ep2TrcptOut => True

-- ## Banks

/-- Everything the invariant asks of what a bank holds in a state. -/
structure BankFits (s : State) (b : Bank) (d : BankDesc) : Prop where
  count : d.byteCount.toNat ≤ 64
  size : d.maxPacketSize ≤ 64
  place : ∃ p, d.bufferAddress = Config.bufAddr p
  consistent : BankConsistent b d
  stall : b = .ep2Out → d.stall = false
  ready : d.ready = true → MayBeReady s b
  reset : s.flags.busReset = true → d.configured = false ∧ d.ready = false

section
variable {s : State}

theorem Inv.mayBeReady (hs : Inv s) {b : Bank} (hb : (s.bank b).ready = true) : MayBeReady s b := by
  cases b with
  | ep0In => exact ⟨hs.ep0Packet (.inl hb), hs.ep0Single hb⟩
  | ep1In => exact ⟨hs.bulkPacket (.inl hb), hs.bulkSingle hb⟩
  | ep0Out | ep2Out => trivial

theorem Inv.bankFits (hs : Inv s) (b : Bank) : BankFits s b (s.bank b) where
  count := hs.counts b
  size := hs.sizes b
  place := hs.places b
  consistent := hs.banks b
  stall := by rintro rfl; exact hs.bulkOut.1
  ready := hs.mayBeReady
  reset h := (hs.resetAlone h).2 b

/-- What holds of every bank and of the new value of one holds of every bank after that one is replaced. -/
theorem setBank_forall {P : Bank → BankDesc → Prop} {b : Bank} {d : BankDesc} (hs : ∀ c, P c (s.bank c)) (hd : P b d) (c : Bank) :
    P c ((s.setBank b d).bank c) := by
  rw [setBank_bank]
  split
  case isTrue h => rw [h]; exact hd
  case isFalse => exact hs c

/-- A bank may be replaced by one that fits. -/
theorem Inv.setBank (hs : Inv s) {b : Bank} {d : BankDesc} (hd : BankFits s b d) : Inv (s.setBank b d) := by
  have hfits : ∀ c, BankFits s c ((s.setBank b d).bank c) := setBank_forall hs.bankFits hd
  exact { hs with
    counts := fun c => (hfits c).count
    sizes := fun c => (hfits c).size
    places := fun c => (hfits c).place
    banks := fun c => (hfits c).consistent
    ep0Packet := fun h => h.elim (fun hready => ((hfits .ep0In).ready hready).1) fun hflag => hs.ep0Packet (.inr hflag)
    ep0Single := fun h => ((hfits .ep0In).ready h).2
    bulkPacket := fun h => h.elim (fun hready => ((hfits .ep1In).ready hready).1) fun hflag => hs.bulkPacket (.inr hflag)
    bulkSingle := fun h => ((hfits .ep1In).ready h).2
    resetAlone := fun h => ⟨(hs.resetAlone h).1, fun c => (hfits c).reset h⟩
    bulkOut := ⟨(hfits .ep2Out).stall rfl, hs.bulkOut.2⟩ }

/-- A configured bank shows that no bus reset is pending (40_endpoint_bank.md R76). -/
theorem Inv.busReset_of_configured (hs : Inv s) {b : Bank} (hb : (s.bank b).configured = true) : s.flags.busReset = false := by
  by_contra h
  obtain ⟨-, hbanks⟩ := hs.resetAlone (by simpa using h)
  simp [(hbanks b).1] at hb

/-- Outside the bulk stages no bulk-IN packet is armed or just taken. -/
theorem Inv.bulkIdle (hs : Inv s) (hstage : ¬BulkStage s) : (s.bank .ep1In).ready = false ∧ s.flags.ep1TrcptIn = false := by
  have hnone := mt hs.bulkPacket hstage
  simpa using hnone

theorem toNat_ofNat_le {n : Nat} (hn : n ≤ 64) : (BitVec.ofNat 32 n).toNat ≤ 64 := by
  rw [BitVec.toNat_ofNat]
  exact (Nat.mod_le n _).trans hn

-- ## The bank operations

theorem Inv.pushOp (hs : Inv s) (op : BankOp) : Inv (s.pushOp op) := { hs with }

theorem Inv.setStall (hs : Inv s) {b : Bank} {v : Bool} (hv : b = .ep2Out → v = false) : Inv (setStall b v s) :=
  hs.setBank { hs.bankFits b with stall := hv }

theorem Inv.releaseBank (hs : Inv s) (hbus : s.flags.busReset = false) (ep : OutEp) : Inv (releaseBank ep s) :=
  hs.setBank { hs.bankFits (outBank ep) with
    ready := fun _ => by cases ep <;> trivial
    reset := by simp [hbus] }

theorem Inv.arm (hs : Inv s) (hbus : s.flags.busReset = false) {ep : InEp} (hready : MayBeReady s (inBank ep)) {n : Nat}
    (hn : n ≤ 64) :
    Inv (s.setBank (inBank ep) { s.bank (inBank ep) with byteCount := BitVec.ofNat 32 n, ready := true }) :=
  hs.setBank { hs.bankFits (inBank ep) with
    count := toNat_ofNat_le hn
    ready := fun _ => hready
    reset := by simp [hbus] }

/-- Configure with the bank's own buffer, size and type (40_endpoint_bank.md R66). -/
theorem Inv.configure (hs : Inv s) (hbus : s.flags.busReset = false) {b : Bank} {ty : EpType}
    (hty : BankConsistent b (.configuredAs ty (ownBuffer b) 64)) : Inv (s.setBank b (.configuredAs ty (ownBuffer b) 64)) :=
  hs.setBank
    { count := Nat.zero_le 64
      size := Nat.le_refl 64
      place := ⟨ownBuffer b, rfl⟩
      consistent := hty
      stall := fun _ => rfl
      ready := nofun
      reset := by simp [hbus] }

/-- A packet taken from a bank, or a SETUP, leaves it not ready (40_endpoint_bank.md R73 to R75). -/
theorem Inv.unready (hs : Inv s) (hbus : s.flags.busReset = false) (b : Bank) {n : BitVec 32} (hn : n.toNat ≤ 64) :
    Inv (s.setBank b { s.bank b with byteCount := n, ready := false }) :=
  hs.setBank { hs.bankFits b with
    count := hn
    ready := nofun
    reset := by simp [hbus] }

-- ## Flags

theorem Inv.setFlag (hs : Inv s) (hbus : s.flags.busReset = false) {e : Event} (he : MayBeRaised s e) :
    Inv (s.setFlag e true) := by
  have hreset : s.flags.busReset ≠ true := by simp [hbus]
  cases e with
  | busReset | ep2StallOut => exact he.elim
  | ep0TrcptIn =>
    obtain ⟨hstage, hready⟩ := he
    exact { hs with
      ep0Packet := fun _ => hstage
      ep0Single := fun h => by cases hready.symm.trans h
      resetAlone := fun h => absurd h hreset }
  | ep0Setup =>
    exact { hs with
      ep0Single := fun h => by cases he.symm.trans h
      resetAlone := fun h => absurd h hreset }
  | ep1TrcptIn =>
    obtain ⟨hstage, hready⟩ := he
    exact { hs with
      bulkPacket := fun _ => hstage
      bulkSingle := fun h => by cases hready.symm.trans h
      resetAlone := fun h => absurd h hreset }
  | ep0TrcptOut | ep0StallIn | ep0StallOut | ep1StallIn | ep2TrcptOut =>
    exact { hs with resetAlone := fun h => absurd h hreset }

theorem flags_get_of_set_false {f : Flags} {e x : Event} (h : (f.set e false).get x = true) : x ≠ e ∧ f.get x = true := by
  have hx : x ≠ e := by rintro rfl; simp at h
  exact ⟨hx, by rwa [flags_get_set_other f e x false hx] at h⟩

theorem flags_set_false_get {f : Flags} {x : Event} (e : Event) (h : f.get x = false) : (f.set e false).get x = false := by
  by_contra hne
  simp [(flags_get_of_set_false (by simpa using hne)).2] at h

/-- Taking an event only clears its flag (60_exceptions.md R130). -/
theorem Inv.takeEvent (hs : Inv s) (e : Event) : Inv (takeEvent e s) := by
  have hkeep {x : Event} (h : (s.flags.set e false).get x = true) := flags_get_of_set_false h
  have hclear {x : Event} (h : s.flags.get x = false) := flags_set_false_get e h
  exact { hs with
    ep0Packet := fun h => hs.ep0Packet (h.imp_right fun hflag => (hkeep (x := .ep0TrcptIn) hflag).2)
    ep0Single := fun h => ⟨hclear (x := .ep0TrcptIn) (hs.ep0Single h).1, hclear (x := .ep0Setup) (hs.ep0Single h).2⟩
    bulkPacket := fun h => hs.bulkPacket (h.imp_right fun hflag => (hkeep (x := .ep1TrcptIn) hflag).2)
    bulkSingle := fun h => hclear (x := .ep1TrcptIn) (hs.bulkSingle h)
    resetAlone := fun h => by
      obtain ⟨he, hbus⟩ := hkeep (x := .busReset) h
      obtain ⟨hflags, hbanks⟩ := hs.resetAlone hbus
      refine ⟨?_, hbanks⟩
      rw [takeEvent_flags, hflags]
      cases e with
      | busReset => exact absurd rfl he
      | _ => rfl
    bulkOut := ⟨hs.bulkOut.1, hclear (x := .ep2StallOut) hs.bulkOut.2⟩ }

-- ## Buffers and registers

/-- A bank not ready and a flag not pending: no packet is armed or just taken. -/
theorem neither_true {ready flag : Bool} (hready : ready = false) (hflag : flag = false) : ¬(ready = true ∨ flag = true) := by
  simp [hready, hflag]

theorem Inv.writeBytes (hs : Inv s) (p : PacketBuf) {v : List Byte} (hv : v.length ≤ 64) : Inv (s.writeBytes p 0 v) :=
  { hs with mem := writeBytes_wf s p 0 v (by omega) hs.mem }

theorem Inv.withResult (hs : Inv s) (r : HostResult) : Inv (withResult r s) := { hs with }

theorem Inv.withScript (hs : Inv s) (l : List ScriptLine) : Inv { s with script := l } := { hs with }

theorem Inv.latchSetup (hs : Inv s) (r : SetupRequest) : Inv (latchSetup r s) := { hs with pendingAddress := nofun }

/-- A no-data STATUS stage may begin at any time, and an address be pending in it (10_state.md R21). -/
theorem Inv.enterNoDataStatus (hs : Inv s) (v : Bool) (a : BitVec 7) :
    Inv { s with ep0State := .noDataStatus, addrPendingValid := v, addrPending := a } :=
  { hs with
    ep0 := nofun
    pendingAddress := fun _ => rfl
    ep0Packet := fun _ => .inr rfl }

theorem Inv.enterDataStageIn (hs : Inv s) (hvalid : s.addrPendingValid = false) : Inv { s with ep0State := .dataStageIn } :=
  { hs with
    ep0 := nofun
    pendingAddress := fun h => by cases hvalid.symm.trans h
    ep0Packet := fun _ => .inl rfl }

/-- A transfer may end where no EP0 IN packet is armed or just taken (42_control_engine.md R88). -/
theorem Inv.enterExpectSetup (hs : Inv s) (hready : (s.bank .ep0In).ready = false) (hflag : s.flags.ep0TrcptIn = false)
    (hvalid : s.addrPendingValid = false) : Inv { s with ep0State := .expectSetup } :=
  { hs with
    ep0 := nofun
    pendingAddress := fun h => by cases hvalid.symm.trans h
    ep0Packet := fun h => absurd h (neither_true hready hflag) }

end

end Sys2Proof.Machine
end

section
/-! PROOFS. The power-on state: its fields, and the invariant it meets. -/

namespace Sys2Proof.Machine

/-- Settles O50: the fields of the reset state, as they are written. -/
theorem powerOnState : Obligations.PowerOnState := by
  refine ⟨rfl, rfl, rfl, rfl, rfl, rfl, rfl, rfl, rfl, rfl, rfl, ?_, fun e => ?_, rfl, rfl⟩
  · rintro b (rfl | rfl) <;> exact ⟨rfl, rfl, rfl, rfl⟩
  · cases e <;> rfl

theorem reset_bank_size (b : Bank) : (State.reset.bank b).maxPacketSize ≤ 64 := by
  cases b with
  | ep0Out | ep0In => exact Nat.le_refl 64
  | ep1In => exact Nat.le_of_lt_succ (Config.resetPacketSize .ep1In).isLt
  | ep2Out => exact Nat.le_of_lt_succ (Config.resetPacketSize .ep2Out).isLt

theorem reset_bank_place (b : Bank) : ∃ p, (State.reset.bank b).bufferAddress = Config.bufAddr p := by
  cases b with
  | ep0Out => exact ⟨.ep0OutBuf, rfl⟩
  | ep0In => exact ⟨.ep0InBuf, rfl⟩
  | ep1In => exact ⟨Config.resetBuffer .ep1In, rfl⟩
  | ep2Out => exact ⟨Config.resetBuffer .ep2Out, rfl⟩

theorem reset_bank_consistent (b : Bank) : BankConsistent b (State.reset.bank b) := by
  cases b with
  | ep0Out | ep0In => exact fun _ => ⟨rfl, rfl, rfl, rfl⟩
  | ep1In | ep2Out => exact nofun

/-- Settles O53: no IN bank is ready and no flag pending, so every clause about packets is void. -/
theorem resetMeetsTheInvariant : Obligations.ResetMeetsTheInvariant where
  mem := reset_buffers_wf
  bot := ⟨⟨nofun, nofun⟩, nofun⟩
  ep0 := nofun
  status := .inl rfl
  residue := Nat.le_refl 0
  counts b := by cases b <;> exact Nat.zero_le 64
  sizes := reset_bank_size
  places := reset_bank_place
  banks := reset_bank_consistent
  address := .inl rfl
  pendingAddress := nofun
  ep0Packet := by rintro (h | h) <;> cases h
  ep0Single := nofun
  bulkPacket := by rintro (h | h) <;> cases h
  bulkSingle := nofun
  cswTag := nofun
  failed := nofun
  resetAlone := nofun
  bulkOut := ⟨rfl, rfl⟩

end Sys2Proof.Machine
end

section
/-! PROOFS. Every step keeps the invariant: the host's moves, the requests and events of the control engine, and the cells of the BOT
engine. -/

namespace Sys2Proof.Machine

section
variable {s t : State}

-- ## Host steps

theorem Inv.setupTaken (hs : Inv s) (hbus : s.flags.busReset = false) : Inv (setupTaken s) := by
  have hout : Inv (s.setBank .ep0Out { s.bank .ep0Out with byteCount := 8, ready := false }) :=
    hs.unready hbus .ep0Out (by decide)
  have hin := hout.unready hbus .ep0In (hout.counts .ep0In)
  exact hin.setFlag (e := .ep0Setup) hbus (by simp [MayBeRaised])

theorem hostSetup_inv {p : List Byte} (hs : Inv s) (h : hostSetup p s = .next t) : Inv t := by
  by_cases hp : p.length = 8
  case neg => simp [hostSetup, hp] at h
  cases hc : (s.bank .ep0Out).configured with
  | false =>
    cases (hostSetup_unconfigured hp hc).symm.trans h
    exact hs.withResult _
  | true =>
    cases (hostSetup_configured hp hc).symm.trans h
    exact ((hs.writeBytes .ep0OutBuf (by omega)).setupTaken (hs.busReset_of_configured hc)).withResult _

theorem Inv.outTaken (hs : Inv s) (hbus : s.flags.busReset = false) (ep : OutEp) {d : List Byte} (hd : d.length ≤ 64) :
    Inv (outTaken ep d s) := by
  have hbank := (hs.writeBytes (ownBuffer (outBank ep)) hd).unready hbus (outBank ep) (toNat_ofNat_le hd)
  exact hbank.setFlag hbus (by cases ep <;> trivial)

/-- Only EP0 OUT answers with STALL: bulk OUT is never stalled (43_bot_engine.md R118). -/
theorem Inv.outStall (hs : Inv s) {ep : OutEp} (hbus : s.flags.busReset = false) (hstall : (s.bank (outBank ep)).stall = true) :
    Inv (s.setFlag (outStall ep) true) := by
  cases ep with
  | ep0 => exact hs.setFlag (e := .ep0StallOut) hbus trivial
  | ep2 => cases hs.bulkOut.1.symm.trans hstall

theorem hostOutOn_inv {ep : OutEp} {d : List Byte} (hs : Inv s) (hd : d.length ≤ 64) (h : hostOutOn ep d s = .next t) :
    Inv t := by
  cases hc : (s.bank (outBank ep)).configured with
  | false =>
    cases (hostOutOn_unconfigured d hc).symm.trans h
    exact hs.withResult _
  | true =>
  have hbus := hs.busReset_of_configured hc
  cases hstall : (s.bank (outBank ep)).stall with
  | true =>
    cases (hostOutOn_stalled d hc hstall).symm.trans h
    exact (hs.outStall hbus hstall).withResult _
  | false =>
  cases hr : (s.bank (outBank ep)).ready with
  | false =>
    cases (hostOutOn_notReady d hc hstall hr).symm.trans h
    exact hs.withResult _
  | true =>
    cases (hostOutOn_ready hd hc hstall hr).symm.trans h
    exact (hs.outTaken hbus ep hd).withResult _

/-- An IN packet taken leaves its bank not ready in the stage it was armed for (40_endpoint_bank.md R75). -/
theorem Inv.inTaken (hs : Inv s) (hbus : s.flags.busReset = false) {ep : InEp} (hr : (s.bank (inBank ep)).ready = true) :
    Inv ((s.setBank (inBank ep) { s.bank (inBank ep) with ready := false }).setFlag (inTrcpt ep) true) := by
  have hbank := hs.unready hbus (inBank ep) (hs.counts (inBank ep))
  refine hbank.setFlag hbus ?_
  cases ep with
  | ep0 => exact ⟨hs.ep0Packet (.inl hr), rfl⟩
  | ep1 => exact ⟨hs.bulkPacket (.inl hr), rfl⟩

theorem hostInOn_inv {ep : InEp} (hs : Inv s) (h : hostInOn ep s = .next t) : Inv t := by
  cases hc : (s.bank (inBank ep)).configured with
  | false =>
    cases (hostInOn_unconfigured hc).symm.trans h
    exact hs.withResult _
  | true =>
  have hbus := hs.busReset_of_configured hc
  cases hstall : (s.bank (inBank ep)).stall with
  | true =>
    cases (hostInOn_stalled hc hstall).symm.trans h
    exact (hs.setFlag hbus (by cases ep <;> trivial)).withResult _
  | false =>
  cases hr : (s.bank (inBank ep)).ready with
  | false =>
    cases (hostInOn_notReady hc hstall hr).symm.trans h
    exact hs.withResult _
  | true =>
    cases (hostInOn_ready (hs.counts _) hc hstall hr).symm.trans h
    exact (hs.inTaken hbus hr).withResult _

/-- The state after a bus reset on the wire (40_endpoint_bank.md R76). -/
def wireReset (s : State) : State :=
  { s with
    flags := { Flags.none with busReset := true }
    devAddr := 0x00
    banks := ⟨s.banks.ep0Out.deconfigured, s.banks.ep0In.deconfigured, s.banks.ep1In.deconfigured,
      s.banks.ep2Out.deconfigured⟩ }

theorem hostReset_eq (s : State) : hostStep .reset s = .next (withResult .noHandshake (wireReset s)) := rfl

theorem wireReset_bank (s : State) (b : Bank) : (wireReset s).bank b = (s.bank b).deconfigured := by
  cases b <;> rfl

/-- A bus reset on the wire leaves its flag alone pending and every bank deconfigured, as the invariant asks. -/
theorem Inv.wireReset (hs : Inv s) : Inv (wireReset s) :=
  { hs with
    counts := fun b => by rw [wireReset_bank]; exact Nat.zero_le 64
    sizes := fun b => by rw [wireReset_bank]; exact hs.sizes b
    places := fun b => by rw [wireReset_bank]; exact hs.places b
    banks := fun b => by rw [wireReset_bank]; exact nofun
    address := .inl rfl
    ep0Packet := by rintro (h | h) <;> cases h
    ep0Single := fun h => by cases h
    bulkPacket := by rintro (h | h) <;> cases h
    bulkSingle := fun h => by cases h
    resetAlone := fun _ => ⟨rfl, fun b => by rw [wireReset_bank]; exact ⟨rfl, rfl⟩⟩
    bulkOut := ⟨rfl, rfl⟩ }

theorem hostStep_inv {m : HostMove} (hs : Inv s) (h : hostStep m s = .next t) : Inv t := by
  cases m with
  | setup p => exact hostSetup_inv hs h
  | out k d =>
    simp only [hostStep, hostOut] at h
    split at h
    · split at h
      case isTrue => cases h
      case isFalse hd => exact hostOutOn_inv hs (by omega) h
    · cases h
  | inn k =>
    simp only [hostStep, hostIn] at h
    split at h
    · exact hostInOn_inv hs h
    · cases h
  | reset =>
    cases (hostReset_eq s).symm.trans h
    exact hs.wireReset.withResult _

-- ## The BOT engine

/-- A rule of the BOT engine has answered `o` in `t`: the invariant holds there, and a packet to send may be armed. -/
def Answered (t : State) (o : BotOutcome) : Prop := Inv t ∧ ∀ n, o = .send n → MayBeReady t .ep1In

theorem Inv.answered_noSend {o : BotOutcome} (ht : Inv t) (ho : ∀ n, o ≠ .send n) : Answered t o :=
  ⟨ht, fun n hn => absurd hn (ho n)⟩

/-- A staged CSW closes the command of the CBW held and may be armed (43_bot_engine.md R106, R107). -/
theorem stageCsw_answered {o : BotOutcome} (hs : Inv s) (hflag : s.flags.ep1TrcptIn = false)
    (h : stageCsw s = .next (t, o)) : Answered t o := by
  rw [stageCsw_eq] at h
  cases h
  have hcsw : Inv { s.withCsw with botState := .cswPending } :=
    { hs with
      bot := ⟨⟨nofun, nofun⟩, nofun⟩
      bulkPacket := fun _ => .inr (.inl rfl)
      cswTag := fun _ => rfl
      failed := nofun }
  exact ⟨hcsw.writeBytes .ep1InBuf (v := closingCsw s) (show 13 ≤ 64 by decide), fun _ _ => ⟨.inr (.inl rfl), hflag⟩⟩

/-- A staged data stage may be armed, and leaves no more remaining than before (44_scsi_commands.md R122, R123). -/
theorem stageData_answered {d : List Byte} {o : BotOutcome} (hs : Inv s) (hflag : s.flags.ep1TrcptIn = false)
    (hd : d.length ≤ 64) (h : stageData d s = .next (t, o)) : Answered t o := by
  rw [stageData_eq d s hd] at h
  cases h
  have hn : min s.cbw.dataTransferLength.toNat d.length ≤ d.length := Nat.min_le_right _ _
  have hdata : ∀ n, Inv { s with remaining := BitVec.ofNat 32 (s.remaining.toNat - n), botState := .dataInPending } := fun n =>
    { hs with
      bot := ⟨⟨nofun, nofun⟩, nofun⟩
      residue := by
        rw [BitVec.toNat_ofNat]
        exact (Nat.mod_le _ _).trans ((Nat.sub_le _ _).trans hs.residue)
      bulkPacket := fun _ => .inl rfl
      cswTag := nofun
      failed := nofun }
  exact ⟨(hdata _).writeBytes .ep1InBuf (by rw [List.length_take]; omega), fun _ _ => ⟨.inl rfl, hflag⟩⟩

theorem Inv.enterError (hs : Inv s) : Inv { s with botState := .error } :=
  { hs with
    bot := ⟨⟨nofun, nofun⟩, nofun⟩
    bulkPacket := fun _ => .inr (.inr rfl)
    cswTag := nofun
    failed := nofun }

/-- A CSW taken closes the command, with no bulk-IN packet armed or just taken (43_bot_engine.md R108). -/
theorem Inv.enterExpectingCbw (hs : Inv s) (hidle : (s.bank .ep1In).ready = false ∧ s.flags.ep1TrcptIn = false) :
    Inv { s with botState := .expectingCbw } :=
  { hs with
    bot := ⟨⟨nofun, nofun⟩, nofun⟩
    bulkPacket := fun h => absurd h (neither_true hidle.1 hidle.2)
    cswTag := nofun
    failed := nofun }

/-- An accepted CBW waits with its whole residue (44_scsi_commands.md R120). -/
theorem Inv.cbwTaken (hs : Inv s) (hb : s.botState = .expectingCbw) : Inv (cbwTaken s) :=
  { hs with
    status := .inl rfl
    residue := Nat.le_refl _
    cswTag := fun h => by cases hb.symm.trans h
    failed := fun h => by cases hb.symm.trans h }

/-- A command that is not supported waits for its STALL to be cleared (60_exceptions.md R136). -/
theorem raiseUnsupportedCommand_answered {o : BotOutcome} (hs : Inv s) (hremaining : s.remaining = s.cbw.dataTransferLength)
    (hidle : (s.bank .ep1In).ready = false ∧ s.flags.ep1TrcptIn = false)
    (h : raiseUnsupportedCommand s = .next (t, o)) : Answered t o := by
  cases h
  exact Inv.answered_noSend { hs with
    bot := ⟨⟨nofun, nofun⟩, nofun⟩
    status := .inr rfl
    bulkPacket := fun h => absurd h (neither_true hidle.1 hidle.2)
    cswTag := nofun
    failed := fun _ => ⟨rfl, hremaining⟩ } nofun

theorem runScsi_answered {o : BotOutcome} (hs : Inv s) (hremaining : s.remaining = s.cbw.dataTransferLength)
    (hidle : (s.bank .ep1In).ready = false ∧ s.flags.ep1TrcptIn = false) (h : runScsi s = .next (t, o)) : Answered t o := by
  unfold runScsi at h
  split at h
  · exact stageCsw_answered hs hidle.2 h
  · exact stageData_answered hs hidle.2 (by simp) h
  · exact stageData_answered hs hidle.2 (by simp) h
  · exact raiseUnsupportedCommand_answered hs hremaining hidle h

theorem takeCbw_answered {o : BotOutcome} (hs : Inv s) (hb : s.botState = .expectingCbw)
    (h : takeCbw .strict s = .next (t, o)) : Answered t o := by
  have hidle := hs.bulkIdle (by simp [BulkStage, hb])
  rw [takeCbw_strict] at h
  split at h
  · exact runScsi_answered (hs.cbwTaken hb) rfl hidle h
  · cases h
    exact hs.enterError.answered_noSend nofun

/-- Every cell keeps the invariant, where the completion of a bulk-IN packet finds none armed (43_bot_engine.md R105). -/
theorem handle_answered {ev : BotEvent} {o : BotOutcome} (hs : Inv s)
    (hev : ev = .bulkInComplete → (s.bank .ep1In).ready = false ∧ s.flags.ep1TrcptIn = false)
    (h : handle ev s = .next (t, o)) : Answered t o := by
  have hidle := hs.bulkIdle
  cases hb : s.botState <;> cases ev <;> simp only [handle, hb] at h
  case expectingCbw.bulkOut => exact takeCbw_answered hs hb h
  case dataInPending.bulkInComplete => exact stageCsw_answered hs (hev rfl).2 h
  case expectingDataOut.bulkOut => exact absurd hb hs.bot.2
  case stallPending.stallCleared => exact stageCsw_answered hs (hidle (by simp [BulkStage, hb])).2 h
  case cswPending.bulkInComplete =>
    cases h
    exact (hs.enterExpectingCbw (hev rfl)).answered_noSend nofun
  case expectingCbw.stallCleared | dataInPending.stallCleared | expectingDataOut.stallCleared | cswPending.stallCleared
    | error.bulkOut | error.bulkInComplete | error.stallCleared =>
    cases h
    exact hs.answered_noSend nofun
  case expectingCbw.bulkInComplete | dataInPending.bulkOut | expectingDataOut.bulkInComplete | cswPending.bulkOut
    | stallPending.bulkOut | stallPending.bulkInComplete =>
    cases h
    exact hs.enterError.answered_noSend nofun
  all_goals cases h

/-- What a cell asks for may be applied to bulk IN (43_bot_engine.md R114). -/
theorem applyOutcome_inv {o : BotOutcome} (hs : Answered s o) (hbus : s.flags.busReset = false) (ho : ∀ n, o = .send n → n ≤ 36)
    (h : applyOutcome o s = .next t) : Inv t := by
  obtain ⟨hinv, hready⟩ := hs
  cases o with
  | send n =>
    have hn : n ≤ 64 := (ho n rfl).trans (by omega)
    cases (emit_armSend .ep1 n s hn).symm.trans h
    exact (hinv.arm hbus (ep := .ep1) (hready n rfl) hn).pushOp _
  | noData => cases h; exact hinv
  | requestStall =>
    cases (emit_stall .ep1In s).symm.trans h
    exact (hinv.setStall (b := .ep1In) nofun).pushOp _

/-- A cell run and its outcome applied: what the events that call `handle` share (43_bot_engine.md R114 to R116). -/
theorem handle_applyOutcome_inv {ev : BotEvent} {u : State} {o : BotOutcome} (hs : Inv s) (hbus : s.flags.busReset = false)
    (hev : ev = .bulkInComplete → (s.bank .ep1In).ready = false ∧ s.flags.ep1TrcptIn = false)
    (hu : handle ev s = .next (u, o)) (ht : applyOutcome o u = .next t) : Inv t ∧ SameInputs s t := by
  obtain ⟨-, -, hinputs, -, -, hbound⟩ := handleTouchesOnlyTheBotEngine ev s u o hu
  have hbus' : u.flags.busReset = false := by rw [hinputs.1]; exact hbus
  exact ⟨applyOutcome_inv (handle_answered hs hev hu) hbus' hbound ht, hinputs.trans (applyOutcome_sameInputs ht)⟩

-- ## The requests

/-- No bus reset, EP0 IN completion or SETUP is pending: an EP0 IN packet may be armed. -/
structure Flags.Ep0Clear (f : Flags) : Prop where
  busReset : f.busReset = false
  ep0TrcptIn : f.ep0TrcptIn = false
  ep0Setup : f.ep0Setup = false

/-- An acknowledgement arms its packet in the stage it enters (42_control_engine.md R93). -/
theorem zlpAck_inv (hs : Inv s) (hclear : s.flags.Ep0Clear) (h : zlpAck s = .next t) : Inv t := by
  rw [zlpAck_eq] at h
  cases h
  exact ((hs.enterNoDataStatus s.addrPendingValid s.addrPending).arm hclear.busReset (ep := .ep0)
    ⟨.inr rfl, hclear.ep0TrcptIn, hclear.ep0Setup⟩ (n := 0) (by omega)).pushOp _

/-- A response is armed in the stage it enters (42_control_engine.md R92). -/
theorem inStage_inv {v : List Byte} (hs : Inv s) (hclear : s.flags.Ep0Clear) (hvalid : s.addrPendingValid = false)
    (h : inStage v s = .next t) : Inv t := by
  have hv : (v.take 64).length ≤ 64 := List.length_take_le 64 v
  rw [← inStage_take, inStage_eq _ s hv] at h
  cases h
  exact (((hs.writeBytes .ep0InBuf hv).enterDataStageIn hvalid).arm hclear.busReset (ep := .ep0)
    ⟨.inl rfl, hclear.ep0TrcptIn, hclear.ep0Setup⟩ hv).pushOp _

/-- What a SETUP event hands to its request: the invariant, no EP0 IN packet armed or just taken, and no address pending
(42_control_engine.md R84). -/
structure RequestReady (s : State) : Prop where
  inv : Inv s
  clear : s.flags.Ep0Clear
  idle : (s.bank .ep0In).ready = false
  noAddress : s.addrPendingValid = false

theorem raiseUnsupportedRequest_inv (hs : RequestReady s) (h : raiseUnsupportedRequest s = .next t) : Inv t := by
  rw [raiseUnsupportedRequest_eq] at h
  cases h
  have hstate := hs.inv.enterExpectSetup hs.idle hs.clear.ep0TrcptIn hs.noAddress
  exact (((hstate.setStall (b := .ep0Out) nofun).pushOp _).setStall (b := .ep0In) nofun).pushOp _

theorem getDescriptor_inv {d : BitVec 8} {len : BitVec 16} (hs : RequestReady s) (h : getDescriptor d len s = .next t) :
    Inv t := by
  obtain ⟨r, -, ht⟩ := andThen_eq_next.mp h
  cases r with
  | some v => exact inStage_inv hs.inv hs.clear hs.noAddress ht
  | none => exact raiseUnsupportedRequest_inv hs ht

theorem exec_classGetMaxLun_inv {value length : BitVec 16} (hs : RequestReady s)
    (h : exec (.classGetMaxLun value length) s = .next t) : Inv t := by
  obtain ⟨v, -, ht⟩ := andThen_eq_next.mp h
  exact inStage_inv hs.inv hs.clear hs.noAddress ht

/-- SET_ADDRESS latches the address in the stage its acknowledgement enters (42_control_engine.md R99). -/
theorem exec_setAddress_inv {rt : BitVec 7} {value index : BitVec 16} (hs : RequestReady s)
    (h : exec (.setAddress rt value index) s = .next t) : Inv t := by
  have hack := (zlpAck_eq { s with addrPending := newAddrOf value, addrPendingValid := true }).symm.trans h
  cases hack
  have hclear := hs.clear
  exact ((hs.inv.enterNoDataStatus true (newAddrOf value)).arm hclear.busReset (ep := .ep0)
    ⟨.inr rfl, hclear.ep0TrcptIn, hclear.ep0Setup⟩ (n := 0) (by omega)).pushOp _

theorem exec_setConfiguration_inv {rt : BitVec 7} {value index : BitVec 16} (hs : RequestReady s)
    (h : exec (.setConfiguration rt value index) s = .next t) : Inv t := by
  have hbus := hs.clear.busReset
  have hbulkIn := (hs.inv.configure hbus (b := .ep1In) (ty := .bulk) fun _ => ⟨rfl, rfl, rfl, rfl⟩).pushOp
    (.configure .ep1In .bulk .ep1InBuf 64)
  have hbulkOut := (hbulkIn.configure hbus (b := .ep2Out) (ty := .bulk) fun _ => ⟨rfl, rfl, rfl, rfl⟩).pushOp
    (.configure .ep2Out .bulk .ep2OutBuf 64)
  have hconfigured : Inv (bulkConfigured s) := (hbulkOut.releaseBank hbus .ep2).pushOp _
  have hclear : (bulkConfigured s).flags.Ep0Clear := by rw [(bulkConfigured_frame s).inputs.1]; exact hs.clear
  exact zlpAck_inv hconfigured hclear ((execSetConfiguration_eq rt value index s).symm.trans h)

theorem execClearFeatureEp81_inv (rt : BitVec 7) (value : BitVec 16) (hs : RequestReady s)
    (h : execClearFeatureEp81 rt value s = .next t) : Inv t := by
  obtain ⟨u, hu, h⟩ := andThen_eq_next.mp h
  obtain ⟨⟨v, o⟩, hv, h⟩ := andThen_eq_next.mp h
  obtain ⟨w, hw, ht⟩ := andThen_eq_next.mp h
  cases (emit_clearStall .ep1In s).symm.trans hu
  have hcleared := (hs.inv.setStall (b := .ep1In) (v := false) nofun).pushOp (.clearStall .ep1In)
  obtain ⟨hw, hinputs⟩ := handle_applyOutcome_inv hcleared hs.clear.busReset (ev := .stallCleared) nofun hv hw
  have hclear : w.flags.Ep0Clear := by rw [hinputs.1]; exact hs.clear
  exact zlpAck_inv hw hclear ht

theorem exec_decodeSetup_inv (r : SetupRequest) (hs : RequestReady s) (h : exec (decodeSetup r) s = .next t) : Inv t := by
  unfold decodeSetup at h
  cases hrow : setupRow r <;> simp only [hrow] at h
  case classGetMaxLun => exact exec_classGetMaxLun_inv hs h
  case getDescriptorDevice | getDescriptorConfiguration | getDescriptorUnsupported => exact getDescriptor_inv hs h
  case classInUnsupported | inUnsupported | outWithData => exact raiseUnsupportedRequest_inv hs h
  case setAddress => exact exec_setAddress_inv hs h
  case setConfiguration => exact exec_setConfiguration_inv hs h
  case clearFeatureEp81 => exact execClearFeatureEp81_inv r.typeBits r.value hs h
  case outDefaultAck => exact zlpAck_inv hs.inv hs.clear h

-- ## The events

/-- The preamble of a SETUP event keeps the invariant and hands the request a pipe with nothing armed (42_control_engine.md R84). -/
theorem afterPreamble_requestReady (hs : Inv s) (hclear : s.flags.Ep0Clear) (hready : (s.bank .ep0In).ready = false) :
    RequestReady (afterPreamble s) := by
  have hout := ((hs.latchSetup (receivedSetup s)).setStall (b := .ep0Out) (v := false) nofun).pushOp (.clearStall .ep0Out)
  have hin := (hout.setStall (b := .ep0In) (v := false) nofun).pushOp (.clearStall .ep0In)
  exact
    { inv := (hin.releaseBank hclear.busReset .ep0).pushOp _
      clear := hclear
      idle := by rw [afterPreamble_bank_ep0In]; exact hready
      noAddress := rfl }

theorem execEp0Setup_inv (hs : Inv s) (hclear : s.flags.Ep0Clear) (hready : (s.bank .ep0In).ready = false)
    (h : execEp0Setup s = .next t) : Inv t := by
  rw [execEp0Setup_eq] at h
  exact exec_decodeSetup_inv _ (afterPreamble_requestReady hs hclear hready) h

/-- The value written to the address register has its bit 7 set (42_control_engine.md R87). -/
theorem enabledAddress_getLsbD (a : BitVec 7) : (1#1 ++ a).getLsbD 7 = true := by
  revert a; decide

theorem Inv.writePendingAddress (hs : Inv s) : Inv { s with devAddr := 1#1 ++ s.addrPending, addrPendingValid := false } :=
  { hs with
    address := .inr (enabledAddress_getLsbD s.addrPending)
    pendingAddress := nofun }

/-- EP0_TRCPT_IN ends its transaction with no EP0 IN packet armed (42_control_engine.md R85 to R88). -/
theorem exec_ep0TrcptIn_inv (hs : Inv s) (hready : (s.bank .ep0In).ready = false) (hflag : s.flags.ep0TrcptIn = false)
    (h : exec .ep0TrcptIn s = .next t) : Inv t := by
  obtain ⟨habsorbed, -⟩ := otherControlCompletionsAreAbsorbed s
  cases hstate : s.ep0State with
  | dataStageIn =>
    cases (exec_ep0TrcptIn_dataStageIn hstate).symm.trans h
    have hvalid : s.addrPendingValid ≠ true := mt hs.pendingAddress (by simp [hstate])
    exact hs.enterExpectSetup hready hflag (by simpa using hvalid)
  | noDataStatus =>
    rw [exec_ep0TrcptIn_noDataStatus hstate] at h
    cases hvalid : s.addrPendingValid with
    | true =>
      cases (completeStatus_pending hvalid).symm.trans h
      exact (hs.writePendingAddress.enterExpectSetup hready hflag rfl).pushOp _
    | false =>
      cases (completeStatus_idle hvalid).symm.trans h
      exact hs.enterExpectSetup hready hflag hvalid
  | expectSetup =>
    cases (habsorbed (.inl hstate)).symm.trans h
    exact hs
  | dataStageOut => exact absurd hstate hs.ep0

/-- The engines start anew where no event is pending and no bank is ready (70_reset_and_hazards.md R148). -/
theorem Inv.resetRegisters (hs : Inv s) (hflags : s.flags = Flags.none) (hready : ∀ b, (s.bank b).ready = false) :
    Inv (resetRegisters s) :=
  { hs with
    bot := ⟨⟨nofun, nofun⟩, nofun⟩
    ep0 := nofun
    status := .inl rfl
    residue := Nat.le_refl _
    pendingAddress := nofun
    ep0Packet := fun h => absurd h (neither_true (hready .ep0In) (congrArg Flags.ep0TrcptIn hflags))
    bulkPacket := fun h => absurd h (neither_true (hready .ep1In) (congrArg Flags.ep1TrcptIn hflags))
    cswTag := nofun
    failed := nofun }

theorem execBusReset_inv (hs : Inv s) (hflags : s.flags = Flags.none) (hready : ∀ b, (s.bank b).ready = false)
    (h : execBusReset s = .next t) : Inv t := by
  rw [execBusReset_eq] at h
  cases h
  have hbus : s.flags.busReset = false := congrArg Flags.busReset hflags
  have hout := ((hs.resetRegisters hflags hready).configure hbus (b := .ep0Out) (ty := .control) fun _ =>
    ⟨rfl, rfl, rfl, rfl⟩).pushOp (.configure .ep0Out .control .ep0OutBuf 64)
  have hin := (hout.configure hbus (b := .ep0In) (ty := .control) fun _ => ⟨rfl, rfl, rfl, rfl⟩).pushOp
    (.configure .ep0In .control .ep0InBuf 64)
  exact (hin.releaseBank hbus .ep0).pushOp _

theorem execEp1TrcptIn_inv (hs : Inv s) (hbus : s.flags.busReset = false)
    (hidle : (s.bank .ep1In).ready = false ∧ s.flags.ep1TrcptIn = false) (h : execEp1TrcptIn s = .next t) : Inv t := by
  obtain ⟨⟨u, o⟩, hu, ht⟩ := andThen_eq_next.mp h
  exact (handle_applyOutcome_inv hs hbus (fun _ => hidle) hu ht).1

theorem execEp2TrcptOut_inv (hs : Inv s) (hbus : s.flags.busReset = false) (h : execEp2TrcptOut s = .next t) : Inv t := by
  obtain ⟨⟨u, o⟩, hu, h⟩ := andThen_eq_next.mp h
  obtain ⟨v, hv, ht⟩ := andThen_eq_next.mp h
  obtain ⟨hinv, hinputs⟩ := handle_applyOutcome_inv hs hbus (ev := .bulkOut) nofun hu hv
  cases (emit_release .ep2 v).symm.trans ht
  exact (hinv.releaseBank (by rw [hinputs.1]; exact hbus) .ep2).pushOp _

/-- An event of a lower code than the one taken is not pending (60_exceptions.md R129). -/
theorem Flags.get_eq_false_of_next {f : Flags} {e x : Event} (h : f.next = some e) (hx : x.code < e.code) : f.get x = false := by
  obtain ⟨-, hleast⟩ := Flags.lowest_of_next_eq_some h
  by_contra hpending
  exact BitVec.not_lt.mpr (hleast x (by simpa using hpending)) hx

/-- Every event taken keeps the invariant: its flag shows that its packet was taken, and no event of a lower code is pending. -/
theorem exec_event_inv {e : Event} (hs : Inv s) (hnext : s.flags.next = some e) (h : exec e.instr (takeEvent e s) = .next t) :
    Inv t := by
  obtain ⟨hpending, -⟩ := Flags.lowest_of_next_eq_some hnext
  have hlower {x : Event} (hx : x.code < e.code) : s.flags.get x = false := Flags.get_eq_false_of_next hnext hx
  have hunready {b : Bank} (hsingle : (s.bank b).ready ≠ true) : (s.bank b).ready = false := by simpa using hsingle
  have htaken := hs.takeEvent e
  cases e with
  | busReset =>
    obtain ⟨hflags, hbanks⟩ := hs.resetAlone hpending
    exact execBusReset_inv htaken (by rw [takeEvent_flags, hflags]; rfl) (fun b => (hbanks b).2) h
  | ep0TrcptIn =>
    have hready := hunready fun hr => by cases (hs.ep0Single hr).1.symm.trans hpending
    exact exec_ep0TrcptIn_inv htaken hready rfl h
  | ep0TrcptOut =>
    cases (emit_release .ep0 _).symm.trans h
    exact (htaken.releaseBank (hlower (x := .busReset) (by decide)) .ep0).pushOp _
  | ep0Setup =>
    have hready := hunready fun hr => by cases (hs.ep0Single hr).2.symm.trans hpending
    exact execEp0Setup_inv htaken ⟨hlower (x := .busReset) (by decide), hlower (x := .ep0TrcptIn) (by decide), rfl⟩ hready h
  | ep1TrcptIn =>
    have hready := hunready fun hr => by cases (hs.bulkSingle hr).symm.trans hpending
    exact execEp1TrcptIn_inv htaken (hlower (x := .busReset) (by decide)) ⟨hready, rfl⟩ h
  | ep2TrcptOut => exact execEp2TrcptOut_inv htaken (hlower (x := .busReset) (by decide)) h
  | ep0StallIn | ep0StallOut | ep1StallIn | ep2StallOut => cases h; exact htaken

end

-- ## The step

/-- Settles O54, by the kind of the next move, which starts from a state that differs in the script alone. -/
theorem stepKeepsTheInvariant : Obligations.StepKeepsTheInvariant := by
  intro s t hs h
  rcases nextMove_cases s with ⟨u, hmove, hu, -⟩ | ⟨m, u, hmove, hu, -, -⟩ | ⟨e, u, hmove, hnext, hu, -⟩
  all_goals have hinv : Inv u := hu ▸ hs.withScript u.script
  · cases (step_of_idle hmove).symm.trans h
    exact hinv
  · exact hostStep_inv hinv ((step_of_host hmove).symm.trans h)
  · exact exec_event_inv hinv (by rw [hu]; exact hnext) ((step_of_event hmove).symm.trans h)

end Sys2Proof.Machine
end

section
/-! PROOFS. The host steps that no packet makes: the bus reset, and the moves the host is assumed never to take. -/

namespace Sys2Proof.Machine

/-- Settles O44: the step is the reset of the wire, its result shown. -/
theorem hostResetVoidsEventsAndBanks : Obligations.HostResetVoidsEventsAndBanks := by
  refine fun s => ⟨_, hostReset_eq s, rfl, fun e => ?_, rfl, wireReset_bank s, rfl, rfl, rfl, rfl, ⟨rfl, rfl, rfl, rfl⟩, rfl,
    sameBytes_of_bufs rfl⟩
  cases e <;> rfl

theorem hostOutEp_eq_none {k : Nat} (h : k ≠ 0 ∧ k ≠ 2) : hostOutEp k = none := by
  unfold hostOutEp
  split
  · exact absurd rfl h.1
  · exact absurd rfl h.2
  · rfl

theorem hostInEp_eq_none {k : Nat} (h : k ≠ 0 ∧ k ≠ 1) : hostInEp k = none := by
  unfold hostInEp
  split
  · exact absurd rfl h.1
  · exact absurd rfl h.2
  · rfl

/-- Settles O45, by the kind of the move: a SETUP of another length, an OUT packet too long or to no OUT bank, an IN token to no IN
bank. -/
theorem forbiddenHostStepsHaveNoMove : Obligations.ForbiddenHostStepsHaveNoMove := by
  intro m s hm
  cases m with
  | setup p =>
    have hp : p.length ≠ 8 := by simpa [HostMove.allowed] using hm
    simp only [hostStep, hostSetup, if_pos hp]
  | out k d =>
    simp only [hostStep, hostOut]
    cases hk : hostOutEp k with
    | none => rfl
    | some ep =>
      have hd : 64 < d.length := by
        by_contra hd
        have hnone := hostOutEp_eq_none (k := k) (by simpa [HostMove.allowed, not_lt.mp hd] using hm)
        cases hk.symm.trans hnone
      exact if_pos hd
  | inn k =>
    have hk : hostInEp k = none := hostInEp_eq_none (by simpa [HostMove.allowed] using hm)
    simp only [hostStep, hostIn, hk]
  | reset => cases hm

end Sys2Proof.Machine
end

section
/-! PROOFS. The next move: which one the script and the pending flags select, and what the invariant says of the event taken. -/

namespace Sys2Proof.Machine

theorem nextMove_host {s : State} {m : HostMove} {rest : List ScriptLine} (h : s.script = .host m :: rest) :
    nextMove s = (.host m, { s with script := rest }) := by
  simp only [nextMove, h]

theorem engineMove_event {s : State} {e : Event} (h : s.flags.next = some e) : engineMove s = .event e := by
  simp only [engineMove, h]

theorem engineMove_idle {s : State} (h : s.flags.next = none) : engineMove s = .idle := by
  simp only [engineMove, h]

/-- An engine line is used up by the event taken (30_encoding.md R65). -/
theorem nextMove_engine_event {s : State} {e : Event} {rest : List ScriptLine} (h : s.script = .engine :: rest)
    (hnext : s.flags.next = some e) : nextMove s = (.event e, { s with script := rest }) := by
  simp only [nextMove, h, engineMove_event hnext]

/-- A used-up script and an engine-until-quiescent line stay while an event is pending (30_encoding.md R65). -/
theorem nextMove_event_stays {s : State} {e : Event} (h : s.script = [] ∨ ∃ rest, s.script = .engineStar :: rest)
    (hnext : s.flags.next = some e) : nextMove s = (.event e, s) := by
  rcases h with h | ⟨rest, h⟩ <;> simp only [nextMove, h, engineMove_event hnext]

/-- On the engine's turn with nothing pending a line is used up and nothing else happens (60_exceptions.md R130). -/
theorem nextMove_idle {s : State} (hnext : s.flags.next = none) (h : ∀ m rest, s.script ≠ .host m :: rest) :
    nextMove s = (.idle, { s with script := s.script.tail }) := by
  have hidle := engineMove_idle hnext
  cases hscript : s.script with
  | nil =>
    simp only [nextMove, hscript, hidle, List.tail_nil]
    rw [← hscript]
  | cons line rest =>
    cases line with
    | host m => exact absurd hscript (h m rest)
    | engine | engineStar => simp only [nextMove, hscript, hidle, List.tail_cons]

theorem decode_event_code (e : Event) : decode (.event e.code) = .ok e.instr := by
  simp only [decode, eventOfCode_code]

/-- Settles O51, by the next move in each case. -/
theorem stepRunsTheNextMove : Obligations.StepRunsTheNextMove := by
  refine fun s => ⟨fun e hnext rest hscript => ⟨decode_event_code e, ?_⟩, fun e hnext hscript => ?_, fun m rest hscript => ?_,
    fun hnext hscript => ?_⟩
  · exact step_of_event (nextMove_engine_event hscript hnext)
  · exact step_of_event (nextMove_event_stays hscript hnext)
  · exact step_of_host (nextMove_host hscript)
  · exact step_of_idle (nextMove_idle hnext hscript)

/-- The event a next move takes is pending. -/
theorem pending_of_nextMove {s u : State} {e : Event} (h : nextMove s = (.event e, u)) : s.flags.get e = true := by
  rcases nextMove_cases s with ⟨v, hv, -⟩ | ⟨m, v, hv, -⟩ | ⟨x, v, hv, hnext, -⟩ <;> cases h.symm.trans hv
  exact (Flags.lowest_of_next_eq_some hnext).1

/-- Settles O59: the event taken is pending, and the invariant says when it may be. -/
theorem strayCompletionsAreNeverTaken : Obligations.StrayCompletionsAreNeverTaken := by
  refine fun s u hs => ⟨fun h => hs.ep0Packet (.inr (pending_of_nextMove h)),
    fun h => hs.bulkPacket (.inr (pending_of_nextMove h)), fun h => ?_⟩
  cases hs.bulkOut.2.symm.trans (pending_of_nextMove h)

end Sys2Proof.Machine
end
